-- ==== Sys2Proof/Word.lean ====
section
/-! DEFINITION. The words of the engine's registers and ports, by the names the spec uses. -/

namespace Sys2Proof

/-- A byte: a sample, a mask byte, a cell of the store (R9, R23 to R25, R35). Bit `i` has weight `2^i`. -/
abbrev Byte := BitVec 8

/-- A line identifier, `PINW` = 8 bits unsigned (R8, R74). -/
abbrev Pin := BitVec 8

/-- A command word, `cmd[35:0]` (R73). -/
abbrev CmdWord := BitVec 36

/-- A response word, `rsp[32:0]` (R77). -/
abbrev RspWord := BitVec 33

end Sys2Proof
end

