-- ==== Sys2Proof/Syntax.lean ====
section
/-! DEFINITION. The operations of the engine, one constructor for each row of the opcode table, and the host script
lines of R80 over them. -/

namespace Sys2Proof

/-- The `edge` field of `ADDTRIG` (R76): codes 0 to 3 are the four edge types, and codes 4 to 7 are legal to write and
not recognised; `unrecognised` keeps the two low bits of such a code. -/
inductive Edge where
  | rising
  | falling
  | high
  | low
  | unrecognised (lowBits : BitVec 2)
deriving DecidableEq, Repr

/-- The operations of R7 that a port can carry: the ten command words of R75 and the tick strobe of R72. -/
inductive Instr where
  | addTrace (pin : Pin)
  | addTrig (pin : Pin) (edge : Edge)
  | setPeriod (period : BitVec 32)
  | reset
  | start
  | isActive
  | isDone
  | rdSample (idx : BitVec 16)
  | rdPeriod
  | rdCount
  | tick
deriving DecidableEq, Repr

/-- The edge operand of a script line (R80): a name, or a number 4 to 7. -/
inductive ScriptEdge where
  | rising
  | falling
  | high
  | low
  | number (n : Nat)
deriving DecidableEq, Repr

/-- One line of a host script (R80), its operands the numbers that are written. `WellFormed.lean` says which are
legal. -/
inductive ScriptLine where
  | hwReset
  | addTrace (pin : Nat)
  | addTrig (pin : Nat) (edge : ScriptEdge)
  | setPeriod (period : Nat)
  | reset
  | start
  | isActive
  | isDone
  | rdSample (idx : Nat)
  | rdPeriod
  | rdCount
  /-- The line form: `ReadLine(p)` answers the level listed for `p`, and 0 for a pin not listed. -/
  | tickLines (levels : List (Nat × Bool))
  /-- The position form: `ReadLine` for position `i` answers entry `i`. -/
  | tickPositions (answers : List Bool)
  | dump
deriving DecidableEq, Repr

end Sys2Proof
end

