-- ==== Sys2Proof/WellFormed.lean ====
section
/-! DEFINITION. Which operations and script lines are well formed. The operands of `Instr` have exactly the widths of
their fields (R74), so an operand a field cannot carry cannot be written there (U12); the checks are on the numbers of a
script line (R80). -/

namespace Sys2Proof

/-- The edge operand of a script line is a name or a number 4 to 7 (R80). -/
def ScriptEdge.wellFormed : ScriptEdge → Bool
  | .rising | .falling | .high | .low => true
  | .number n => 4 ≤ n && n ≤ 7

/-- A script line's operands are in the ranges of R80; `count` is the number of registered lines when the line is
executed, which the position form of `TICK` must match. -/
def ScriptLine.wellFormed (count : Nat) : ScriptLine → Bool
  | .addTrace pin => pin ≤ 255
  | .addTrig pin edge => pin ≤ 255 && edge.wellFormed
  | .setPeriod period => period < 2 ^ 32
  | .rdSample idx => idx ≤ 65535
  | .tickLines levels => levels.all fun l => l.1 ≤ 255
  | .tickPositions answers => answers.length == count
  | .hwReset | .reset | .start | .isActive | .isDone | .rdPeriod | .rdCount | .dump => true

/-- An operation goes on the command port (R75); the tick alone goes on the strobe (R72). -/
def Instr.isCommand : Instr → Bool
  | .tick => false
  | .addTrace _ | .addTrig _ _ | .setPeriod _ | .reset | .start | .isActive | .isDone | .rdSample _ | .rdPeriod
  | .rdCount => true

end Sys2Proof
end

