-- ==== Sys2Proof/Decode.lean ====
section
/-! DEFINITION. Decoding of command words and of the tick strobe (R72 to R83), and the encoder. `decode` is the
procedure of R83; `opcodeTable` is the table of R75 as data. -/

namespace Sys2Proof

/-- Why a word is no operation. Not visible at the interface: every illegal command word has the one response of R78. -/
inductive Illegal where
  /-- `op` is `0x0` or `0xB` to `0xF` (R78). -/
  | opcodeUnassigned (op : BitVec 4)
  /-- `op` is assigned and a reserved bit of its format is 1 (R78). -/
  | reservedBitSet (op : BitVec 4)
  /-- The strobe is 0: there is no tick (R72). -/
  | noStrobe
deriving DecidableEq, Repr

/-- `op = cmd[35:32]` (R73). -/
def opField (w : CmdWord) : BitVec 4 := w.extractLsb' 32 4

/-- `pin = cmd[7:0]` (R74). -/
def pinField (w : CmdWord) : Pin := w.extractLsb' 0 8

/-- `edge = cmd[10:8]` (R74). -/
def edgeField (w : CmdWord) : BitVec 3 := w.extractLsb' 8 3

/-- `period = cmd[31:0]` (R74). -/
def periodField (w : CmdWord) : BitVec 32 := w.extractLsb' 0 32

/-- `idx = cmd[15:0]` (R74). -/
def idxField (w : CmdWord) : BitVec 16 := w.extractLsb' 0 16

/-- The edge codes of R76. -/
def Edge.ofCode (c : BitVec 3) : Edge :=
  match c.toNat with
  | 0 => .rising
  | 1 => .falling
  | 2 => .high
  | 3 => .low
  | _ => .unrecognised (c.extractLsb' 0 2)

/-- The code of an edge operand (R76). -/
def Edge.code : Edge → BitVec 3
  | .rising => 0
  | .falling => 1
  | .high => 2
  | .low => 3
  | .unrecognised b => 1#1 ++ b

/-- An operation whose format's reserved bits must be 0 (R78). -/
def whenReservedZero (w : CmdWord) (zero : Bool) (i : Instr) : Except Illegal Instr :=
  if zero then .ok i else .error (.reservedBitSet (opField w))

/-- Format Z: no operand, `cmd[31:0]` reserved. -/
def decodeZ (w : CmdWord) (i : Instr) : Except Illegal Instr :=
  whenReservedZero w (w.extractLsb' 0 32 == 0) i

/-- `Decode(w)` of R83, total on the `2^36` words. -/
def decode (w : CmdWord) : Except Illegal Instr :=
  match (opField w).toNat with
  | 0x1 => whenReservedZero w (w.extractLsb' 8 24 == 0) (.addTrace (pinField w))
  | 0x2 => whenReservedZero w (w.extractLsb' 11 21 == 0) (.addTrig (pinField w) (Edge.ofCode (edgeField w)))
  | 0x3 => .ok (.setPeriod (periodField w))
  | 0x4 => decodeZ w .reset
  | 0x5 => decodeZ w .start
  | 0x6 => decodeZ w .isActive
  | 0x7 => decodeZ w .isDone
  | 0x8 => whenReservedZero w (w.extractLsb' 16 16 == 0) (.rdSample (idxField w))
  | 0x9 => decodeZ w .rdPeriod
  | 0xA => decodeZ w .rdCount
  | _ => .error (.opcodeUnassigned (opField w))

/-- What a port carries in one cycle: a command word (R70) or the one-bit tick strobe (R72). -/
inductive PortWord where
  | cmd (w : CmdWord)
  | strobe (b : BitVec 1)
deriving DecidableEq, Repr

/-- The operation a port's word stands for. -/
def decodePort : PortWord → Except Illegal Instr
  | .cmd w => decode w
  | .strobe b => if b == 1 then .ok .tick else .error .noStrobe

/-- A command word: the opcode above the 32 bits of its operands and reserved bits (R73). -/
def cmdWord (op : BitVec 4) (operands : BitVec 32) : CmdWord := op ++ operands

/-- `Encode` of R83: `op` in bits 35:32, the operands in their fields, zero elsewhere; the tick is the strobe at 1. -/
def encode : Instr → PortWord
  | .addTrace pin => .cmd (cmdWord 0x1 (0#24 ++ pin))
  | .addTrig pin edge => .cmd (cmdWord 0x2 (0#21 ++ edge.code ++ pin))
  | .setPeriod period => .cmd (cmdWord 0x3 period)
  | .reset => .cmd (cmdWord 0x4 0)
  | .start => .cmd (cmdWord 0x5 0)
  | .isActive => .cmd (cmdWord 0x6 0)
  | .isDone => .cmd (cmdWord 0x7 0)
  | .rdSample idx => .cmd (cmdWord 0x8 (0#16 ++ idx))
  | .rdPeriod => .cmd (cmdWord 0x9 0)
  | .rdCount => .cmd (cmdWord 0xA 0)
  | .tick => .strobe 1

/-- One row of the table of R75. -/
structure OpcodeRow where
  mnemonic : String
  matchBits : CmdWord
  maskBits : CmdWord
deriving DecidableEq, Repr

/-- The ten command rows of R75. -/
def opcodeTable : List OpcodeRow :=
  [ { mnemonic := "ADDTRACE", matchBits := 0x100000000#36, maskBits := 0xFFFFFFF00#36 },
    { mnemonic := "ADDTRIG", matchBits := 0x200000000#36, maskBits := 0xFFFFFF800#36 },
    { mnemonic := "SETPERIOD", matchBits := 0x300000000#36, maskBits := 0xF00000000#36 },
    { mnemonic := "RESET", matchBits := 0x400000000#36, maskBits := 0xFFFFFFFFF#36 },
    { mnemonic := "START", matchBits := 0x500000000#36, maskBits := 0xFFFFFFFFF#36 },
    { mnemonic := "ISACTIVE", matchBits := 0x600000000#36, maskBits := 0xFFFFFFFFF#36 },
    { mnemonic := "ISDONE", matchBits := 0x700000000#36, maskBits := 0xFFFFFFFFF#36 },
    { mnemonic := "RDSAMPLE", matchBits := 0x800000000#36, maskBits := 0xFFFFF0000#36 },
    { mnemonic := "RDPERIOD", matchBits := 0x900000000#36, maskBits := 0xFFFFFFFFF#36 },
    { mnemonic := "RDCOUNT", matchBits := 0xA00000000#36, maskBits := 0xFFFFFFFFF#36 } ]

/-- A word selects a row when `(w & mask) == match` (R75). -/
def OpcodeRow.selects (r : OpcodeRow) (w : CmdWord) : Bool := w &&& r.maskBits == r.matchBits

/-- The mnemonics of R7. -/
def Instr.mnemonic : Instr → String
  | .addTrace _ => "ADDTRACE"
  | .addTrig _ _ => "ADDTRIG"
  | .setPeriod _ => "SETPERIOD"
  | .reset => "RESET"
  | .start => "START"
  | .isActive => "ISACTIVE"
  | .isDone => "ISDONE"
  | .rdSample _ => "RDSAMPLE"
  | .rdPeriod => "RDPERIOD"
  | .rdCount => "RDCOUNT"
  | .tick => "TICK"

/-- The port a table row's word goes to: the one row of width 1 (in whole bytes, 8 bits) is the strobe, every wider row
is a command word (R75). Each port has only its own wires: bits of `w` beyond them do not exist. Log 6. -/
def portOfTableWord (nbits w : Nat) : PortWord :=
  if nbits ≤ 8 then .strobe (BitVec.ofNat 1 w) else .cmd (BitVec.ofNat 36 w)

/-- The instruction the decoder reads from a table row's word. -/
def decodeTableWord (nbits w : Nat) : Option Instr :=
  match decodePort (portOfTableWord nbits w) with
  | .ok i => some i
  | .error _ => none

end Sys2Proof
end

