-- ==== Sys2Proof/Config.lean ====
section
/-! DEFINITION. What one engine instance fixes (R8), and the values the spec leaves open: each of these is a constant
with no body, so nothing can be proved of its value. -/

namespace Sys2Proof.Config

/-- The parameters of R8. They are constants of one engine instance (R20); `State.params` carries them and no step
writes them (log 1). -/
structure Params where
  /-- `N`, the capacity of the sample store in bytes. -/
  capacity : Nat
  /-- `PIN_MIN`, the least valid line identifier. -/
  pinMin : Nat
  /-- `PIN_MAX`, the greatest valid line identifier. -/
  pinMax : Nat
deriving DecidableEq, Repr

/-- The defaults of R8: `N` = 500, `PIN_MIN` = 0, `PIN_MAX` = 13. -/
def Params.standard : Params := { capacity := 500, pinMin := 0, pinMax := 13 }

/-- The constraints of R8 (D3, D4): `3 ≤ N ≤ 65536` and `0 ≤ PIN_MIN ≤ PIN_MAX ≤ 255`. -/
abbrev Params.Valid (p : Params) : Prop :=
  3 ≤ p.capacity ∧ p.capacity ≤ 65536 ∧ p.pinMin ≤ p.pinMax ∧ p.pinMax ≤ 255

/-- The byte a slot of the store reads as when nothing has written it since the hardware reset numbered by the first
argument (R37, U1): a free value, the same on every read of that slot until the next hardware reset (R55). Log 4. -/
opaque storeDraw : Nat → Nat → Byte

/-- The bits hardware reset number `n` leaves in a traced-line entry (R37, U1): a free value. Log 5. -/
opaque traceDraw : Nat → Fin 8 → Pin

/-- The bit hardware reset number `n` leaves in the first-sample mark (R37, U1): a free value. Log 5. -/
opaque firstDraw : Nat → Bool

/-- The abstract report of `DUMP` (R144): the period header, the column indices, and one row of digits for each
registered line. -/
structure Report where
  period : BitVec 32
  columns : List Nat
  rows : List (List Nat)
deriving DecidableEq, Repr

/-- The text of the report, `render : Report -> bytes`, which the spec leaves open (R147, U14). No definition of the
model uses it. Log 14. -/
opaque render : Report → List Byte

end Sys2Proof.Config
end

