-- ==== Sys2Proof/Machine/State.lean ====
section
/-! DEFINITION. The state of the engine (R20), what its ports show, and the reset state (R37). -/

namespace Sys2Proof.Machine

/-- The capture session state (R29). It has three values; the reserved encoding `0b11` cannot be written (R30, U2). -/
inductive Session where
  | done
  | waitingForTrigger
  | tracing
deriving DecidableEq, Repr

/-- The response to a command (R77): `ok = rsp[32]`, `data = rsp[31:0]`. -/
structure Response where
  ok : Bool
  data : BitVec 32
deriving DecidableEq, Repr

/-- One call of the line oracle (R61): the bit position, the line identifier asked for, and the answer. -/
structure LineRead where
  position : Fin 8
  pin : Pin
  level : Bool
deriving DecidableEq, Repr

/-- What the outside drives on the input ports in one clock cycle (R70). -/
structure Cycle where
  rst : Bool := false
  tick : Bool := false
  cmdValid : Bool := false
  cmd : CmdWord := 0
  lineVal : Byte := 0
deriving DecidableEq, Repr

/-- The written bytes of the sample store by index (R50), the indices strictly rising. A slot that is not listed has been
written by nothing since hardware reset and holds no value (R37). -/
abbrev Memory := List Host.Cell

/-- The faults of the model. The hardware has none (R150). -/
inductive Fault where
  /-- Raised by the one write of the store (`writeSlot`) when the engine forms an index outside `0..N-1`, an address that
  does not exist (R54). No reachable state raises it (R38 items 4 and 5). Safe: it stops where the spec says nothing.
  Log 13. -/
  | slotOutsideStore (index : Nat)
deriving DecidableEq, Repr

/-- The refusals of the model. -/
inductive Refusal where
  /-- Raised by `exec` for an instruction that has no meaning yet; no arm uses it. Safe. -/
  | notModelled (mnemonic : String)
deriving DecidableEq, Repr

/-- The engine. The ten elements of R20 come first, then the ports of the current cycle, then the model's own fields. -/
structure State where
  /-- `trace[0..7]`, the traced-line table (R21). -/
  trace : Vector Pin 8
  /-- `count`, the number of registered lines, 0 to 8 (R22). -/
  count : Fin 9
  /-- `enabled`, first byte of the trigger mask (R23). -/
  enabled : Byte
  /-- `expectedPrev`, second byte of the trigger mask (R24). -/
  expectedPrev : Byte
  /-- `expectedCur`, third byte of the trigger mask (R25). -/
  expectedCur : Byte
  /-- `store[0..N-1]`, the sample store (R35, R50). -/
  store : Memory
  /-- `cursor`, the insertion cursor (R33). -/
  cursor : Nat
  /-- `state`, the capture session state (R29). -/
  state : Session
  /-- `first`, the first-sample mark (R31). -/
  first : Bool
  /-- `period`, the sample period, for reporting only (R34). -/
  period : BitVec 32
  /-- `line_val[0..7]`: the level the environment presents for each position in the current cycle (R70, R12). -/
  lineVal : Byte
  /-- `rsp` in the cycles in which `rsp_valid` is 1, absent in the others (R70, R77). -/
  rsp : Option Response
  /-- The oracle calls made so far in the current cycle, in order (R13, R61). -/
  lineReads : List LineRead
  /-- The clock cycles the environment will present next (R14, R70); an infinite sequence is presented cycle by cycle
  (`runSchedule`, log 6). -/
  inputs : List Cycle
  /-- The sticky protocol mark of R192. No rule of the engine reads it. -/
  violated : Bool
  /-- The constants of this engine instance (R8). No step writes them. -/
  params : Config.Params
  /-- How many hardware resets the run has had: it selects the free values of U1. -/
  epoch : Nat
deriving DecidableEq, Repr

/-- The engine right after hardware reset (R37, R170), with the default parameters of R8 and nothing scheduled. The spec
gives no value for `trace` and `first`; the values here are the model's (logs 2 and 3). -/
def State.reset : State where
  trace := Vector.replicate 8 0
  count := 0
  enabled := 0
  expectedPrev := 0
  expectedCur := 0
  store := []
  cursor := 0
  state := .done
  first := false
  period := 0
  lineVal := 0
  rsp := none
  lineReads := []
  inputs := []
  violated := false
  params := Config.Params.standard
  epoch := 0

end Sys2Proof.Machine
end

