-- ==== Sys2Proof/Machine/Flags.lean ====
section
/-! DEFINITION. The status predicates and level outputs (R32, R82), the encodings of the state and of a response (R29,
R77), and the trigger comparator (R116). -/

namespace Sys2Proof.Machine

/-- `active = (state == TRACING)` (R32, R82). False while armed (C5). -/
def State.active (s : State) : Bool := s.state == .tracing

/-- `done = (state == DONE)` (R32, R82). -/
def State.done (s : State) : Bool := s.state == .done

/-- The 2-bit encoding of `state` (R29). -/
def Session.code : Session → BitVec 2
  | .done => 0b00
  | .waitingForTrigger => 0b01
  | .tracing => 0b10

/-- The state a 2-bit encoding stands for; `0b11` is reserved (R30). -/
def Session.ofCode (c : BitVec 2) : Option Session :=
  match c.toNat with
  | 0 => some .done
  | 1 => some .waitingForTrigger
  | 2 => some .tracing
  | _ => none

/-- The response of a command that succeeds with data `d` (R11, R77). -/
def Response.okData (d : BitVec 32) : Response := { ok := true, data := d }

/-- The response of a command that fails, and of an illegal word: `ok = 0`, `data = 0` (R77, R78). -/
def Response.fail : Response := { ok := false, data := 0 }

/-- The 33-bit response word (R77). -/
def Response.word (r : Response) : RspWord := BitVec.ofBool r.ok ++ r.data

/-- A Boolean answer in `data[0]` (R77): `zext_32` of one bit. -/
def boolData (b : Bool) : BitVec 32 := (BitVec.ofBool b).setWidth 32

/-- `Trig(en, ep, ec, s0, s1)`, the two-sample trigger comparator (R116). -/
def trig (en ep ec s0 s1 : Byte) : Bool := ep == (en &&& s0) && ec == (en &&& s1)

end Sys2Proof.Machine
end

