-- ==== Sys2Proof/Machine/Operands.lean ====
section
/-! DEFINITION. How the operations find what they act on: bits of a byte, the edge table (R94), the first position of a
line (R93), the oracle's answers and `Pack` (R12, R13), and the causes of failure (R151). -/

namespace Sys2Proof.Machine

/-- `v[i] <- b`: only bit `i` changes (R9, R126). -/
def assignBit (v : Byte) (i : Nat) (b : Bool) : Byte :=
  if b then v ||| (1#8 <<< i) else v &&& ~~~(1#8 <<< i)

/-- `EdgeBits`, the edge table of R94: the bits of `expectedPrev` and `expectedCur`; no entry for an edge that is not
recognised (R76). -/
def edgeBits : Edge → Option (Bool × Bool)
  | .rising => some (false, true)
  | .falling => some (true, false)
  | .high => some (true, true)
  | .low => some (false, false)
  | .unrecognised _ => none

/-- The positions `0..7`, ascending. -/
def positions : List (Fin 8) := [0, 1, 2, 3, 4, 5, 6, 7]

/-- Position `i` is registered: `i < count` (R21). -/
def State.registered (s : State) (i : Fin 8) : Bool := i.val < s.count.val

/-- The least `k` in `0..count-1` with `trace[k] == pin` (R93, R96); stale entries never match (R21). -/
def State.firstPosition (s : State) (pin : Pin) : Option (Fin 8) :=
  positions.find? fun k => s.registered k && s.trace[k] == pin

/-- The loop of `Pack` after its first `n` positions (R13). -/
def packUpTo (lineVal : Byte) : Nat → Byte
  | 0 => 0
  | n + 1 => if lineVal.getLsbD n then assignBit (packUpTo lineVal n) n true else packUpTo lineVal n

/-- `Pack()` (R13): the oracle's answer for each registered position in that position's bit, 0 above. -/
def State.pack (s : State) : Byte := packUpTo s.lineVal s.count.val

/-- The calls of the line oracle that one `Pack` makes: one for each registered position, ascending (R13, R61). -/
def State.oracleCalls (s : State) : List LineRead :=
  (positions.filter s.registered).map fun i =>
    { position := i, pin := s.trace[i], level := s.lineVal.getLsbD i }

/-- The engine reads lines in this state when a tick comes: `WAITING_FOR_TRIGGER` or `TRACING` (R61, R120). -/
def State.working (s : State) : Bool := s.state != .done

/-- `line_en[i]`, from the state at the moment the tick executes (R70). -/
def State.lineEn (s : State) (tick : Bool) (i : Fin 8) : Bool := tick && s.registered i && s.working

/-- `line_sel[i] = trace[i]` (R70). -/
def State.lineSel (s : State) (i : Fin 8) : Pin := s.trace[i]

/-- `CURW`, the width of the cursor: the least `w` with `2^w > N` (R8, R33). -/
def cursorWidth (p : Config.Params) : Nat := Nat.log2 p.capacity + 1

/-- The causes of failure of R151, for the model's use; they are not visible at the interface (R152). F6, an illegal
word, is `Illegal` of the decoder. -/
inductive FailCause where
  /-- F1: `pin < PIN_MIN` or `pin > PIN_MAX`. -/
  | pinOutOfRange
  /-- F2: `count == 8`. -/
  | tableFull
  /-- F3: no `k < count` with `trace[k] == pin`. -/
  | pinNotRegistered
  /-- F4: `edge ≥ 4`. -/
  | edgeUnrecognised
  /-- F5: `idx ≥ N`. -/
  | indexOutOfRange
deriving DecidableEq, Repr

/-- Why `ADDTRACE` fails, if it does, in the order of R90. -/
def State.addTraceFailure (s : State) (pin : Pin) : Option FailCause :=
  if pin.toNat < s.params.pinMin || s.params.pinMax < pin.toNat then some .pinOutOfRange
  else if 8 ≤ s.count.val then some .tableFull
  else none

/-- What `ADDTRIG` sets, or why it fails, in the order of R93: the position, its `expectedPrev` bit and its
`expectedCur` bit. -/
def State.triggerTarget (s : State) (pin : Pin) (edge : Edge) : Except FailCause (Fin 8 × Bool × Bool) :=
  match s.firstPosition pin, edgeBits edge with
  | none, _ => .error .pinNotRegistered
  | some _, none => .error .edgeUnrecognised
  | some i, some (p, c) => .ok (i, p, c)

/-- Why `RDSAMPLE` fails, if it does (R140). -/
def State.rdSampleFailure (s : State) (idx : BitVec 16) : Option FailCause :=
  if s.params.capacity ≤ idx.toNat then some .indexOutOfRange else none

end Sys2Proof.Machine
end

