-- ==== Sys2Proof/Machine/Ops.lean ====
section
/-! DEFINITION. The named operations over the store, the registers and the ports. The hardware takes no exception and
returns from none (R150, R154): in the place of exception entry stands the one shared way to fail, `State.failed`. -/

namespace Sys2Proof.Machine

/-- What a step or a meaning answers. -/
abbrev Result := Host.Outcome State Fault Refusal

/-- Go on from a next state; a fault or a refusal stops. -/
def andThen (r : Result) (f : State → Result) : Result :=
  match r with
  | .next s => f s
  | .fault e => .fault e
  | .refused e => .refused e

/-! ### The sample store -/

/-- The canonical form: the indices strictly rise. -/
def Memory.wf : Memory → Bool
  | [] => true
  | [_] => true
  | a :: b :: m => a.1 < b.1 && Memory.wf (b :: m)

/-- The byte written at an index, if one was. -/
def Memory.byteAt? : Memory → Nat → Option Byte
  | [], _ => none
  | (b, v) :: m, a => if a = b then some v else Memory.byteAt? m a

/-- Write one byte, keeping the canonical form. -/
def Memory.write : Memory → Nat → Byte → Memory
  | [], a, v => [(a, v)]
  | (b, w) :: m, a, v =>
    if a < b then (a, v) :: (b, w) :: m
    else if a = b then (a, v) :: m
    else (b, w) :: Memory.write m a v

/-- A store of `n` bytes, every one `0x00` (R110). -/
def Memory.zeroed (n : Nat) : Memory := (List.range n).map fun j => (j, 0)

/-- `store[i]`. A slot nothing has written since hardware reset reads as a free value (R37, U1; log 4). -/
def State.slot (s : State) (i : Nat) : Byte :=
  match Memory.byteAt? s.store i with
  | some v => v
  | none => Config.storeDraw s.epoch i

/-- The state with the byte of slot `i` written. -/
def State.putSlot (s : State) (i : Nat) (v : Byte) : State := { s with store := Memory.write s.store i v }

/-- `store[i] <- v`. An index outside `0..N-1` does not exist (R50, R54; log 13). -/
def writeSlot (i : Nat) (v : Byte) (s : State) : Result :=
  if i < s.params.capacity then .next (s.putSlot i v)
  else .fault (.slotOutsideStore i)

/-! ### Responses -/

/-- Drive `rsp`, with `rsp_valid` 1 (R71, R77). -/
def State.reply (s : State) (r : Response) : State := { s with rsp := some r }

/-- `return ok(d)` (R11). -/
def State.succeeded (s : State) (d : BitVec 32) : State := s.reply (.okData d)

/-- `return fail` (R11, R150): no state element changes, and the response has `ok = 0`. -/
def State.failed (s : State) : State := s.reply .fail

/-! ### Configuration registers -/

/-- Set the protocol mark of R192 when the configuration is touched outside `DONE`. -/
def State.markConfiguration (s : State) : State := { s with violated := s.violated || s.state != .done }

/-- `trace[count] <- pin; count <- count + 1`, for `count < 8` (R90, R126). -/
def State.registerLine (s : State) (pin : Pin) : State :=
  if h : s.count.val < 8 then
    { s with trace := s.trace.set s.count.val pin h, count := ⟨s.count.val + 1, by omega⟩ }
  else s

/-- `enabled[i] <- 1; expectedPrev[i] <- p; expectedCur[i] <- c` (R93): assigned, not OR-ed (R95). -/
def State.setTrigger (s : State) (i : Fin 8) (p c : Bool) : State :=
  { s with
    enabled := assignBit s.enabled i true
    expectedPrev := assignBit s.expectedPrev i p
    expectedCur := assignBit s.expectedCur i c }

/-- What `RESET` writes (R99); `store`, `trace` and `first` stay (R100). -/
def State.clearConfiguration (s : State) : State :=
  { s with
    state := .done
    period := 0
    count := 0
    cursor := 0
    enabled := 0
    expectedPrev := 0
    expectedCur := 0 }

/-- Hardware reset (R37, R170): what `RESET` writes, and `trace`, `first` and every byte of the store unspecified. It
clears the protocol mark (R192), yields no response (R71) and reads no line. -/
def State.hardwareReset (s : State) : State :=
  { s.clearConfiguration with
    trace := Vector.ofFn (Config.traceDraw (s.epoch + 1))
    first := Config.firstDraw (s.epoch + 1)
    store := []
    rsp := none
    lineReads := []
    violated := false
    epoch := s.epoch + 1 }

/-! ### The capture session -/

/-- What `START` writes (R110). -/
def State.arm (s : State) : State :=
  { s with
    cursor := 2
    store := Memory.zeroed s.params.capacity
    first := true
    state := .waitingForTrigger }

/-- The end of a `WAITING_FOR_TRIGGER` tick, after the window holds the new samples (R114): the first tick clears the
mark and skips the comparator (R115), a later one starts tracing if the comparator fires (R116). -/
def State.evaluateTrigger (s : State) : State :=
  if s.first then { s with first := false }
  else if trig s.enabled s.expectedPrev s.expectedCur (s.slot 0) (s.slot 1) then { s with state := .tracing }
  else s

/-- `cursor <- cursor + 1; if cursor == N then state <- DONE` (R118). -/
def State.advanceCursor (s : State) : State :=
  { s with
    cursor := s.cursor + 1
    state := if s.cursor + 1 = s.params.capacity then .done else s.state }

/-- Record the oracle calls of one `Pack` (R61). -/
def State.recordReads (s : State) (reads : List LineRead) : State := { s with lineReads := reads }

/-! ### Ports -/

/-- The environment presents these answers on `line_val` (R70, R12). -/
def State.presentLines (s : State) (levels : Byte) : State := { s with lineVal := levels }

/-- The start of a clock cycle: its answers stand on `line_val`, no response is driven and no line has been read yet
(R70, R71). -/
def State.beginCycle (s : State) (c : Cycle) : State :=
  { s with lineVal := c.lineVal, rsp := none, lineReads := [] }

end Sys2Proof.Machine
end

