-- ==== Sys2Proof/Machine/Capture.lean ====
section
/-! DEFINITION. The capture session: `START`, `TICK`, `ISACTIVE`, `ISDONE` (R110 to R129). -/

namespace Sys2Proof.Machine

/-- `START` (R110 to R112): no precondition (R111). -/
def execStart (s : State) : Result := .next (s.arm.succeeded 0)

/-- `TICK` in `WAITING_FOR_TRIGGER` (R114): shift slot 1 into slot 0, put the new sample in slot 1, evaluate the trigger.
The `0x00` that slot 1 holds for a moment is never observable (R114), so it is not written. -/
def tickWaiting (s : State) : Result :=
  andThen (writeSlot 0 (s.slot 1) s) fun shifted =>
    andThen (writeSlot 1 s.pack shifted) fun sampled => .next (sampled.evaluateTrigger.recordReads s.oracleCalls)

/-- `TICK` in `TRACING` (R118): the new sample in the slot at the cursor, no comparator. -/
def tickTracing (s : State) : Result :=
  andThen (writeSlot s.cursor s.pack s) fun sampled => .next (sampled.advanceCursor.recordReads s.oracleCalls)

/-- `TICK` (R113); in `DONE` it is a no-op and reads no line (R120). -/
def execTick (s : State) : Result :=
  match s.state with
  | .waitingForTrigger => tickWaiting s
  | .tracing => tickTracing s
  | .done => .next s

/-- `ISACTIVE` (R124). -/
def execIsActive (s : State) : Result := .next (s.succeeded (boolData s.active))

/-- `ISDONE` (R125). -/
def execIsDone (s : State) : Result := .next (s.succeeded (boolData s.done))

end Sys2Proof.Machine
end

