-- ==== Sys2Proof/Machine/Configuration.lean ====
section
/-! DEFINITION. The configuration operations (R90 to R102). None of `ADDTRACE`, `ADDTRIG`, `SETPERIOD` tests `state`
(R102). -/

namespace Sys2Proof.Machine

/-- `ADDTRACE pin` (R90 to R92). -/
def execAddTrace (pin : Pin) (s : State) : Result :=
  match s.addTraceFailure pin with
  | some _ => .next s.markConfiguration.failed
  | none => .next ((s.markConfiguration.registerLine pin).succeeded 0)

/-- `ADDTRIG pin, edge` (R93 to R96). -/
def execAddTrig (pin : Pin) (edge : Edge) (s : State) : Result :=
  match s.triggerTarget pin edge with
  | .error _ => .next s.markConfiguration.failed
  | .ok (i, p, c) => .next ((s.markConfiguration.setTrigger i p c).succeeded 0)

/-- `SETPERIOD period` (R97, R98): any value is accepted and no protocol mark is set (R192). -/
def execSetPeriod (period : BitVec 32) (s : State) : Result :=
  .next (State.succeeded { s with period := period } 0)

/-- `RESET` (R99 to R101). -/
def execReset (s : State) : Result := .next (s.clearConfiguration.succeeded 0)

end Sys2Proof.Machine
end

