-- ==== Sys2Proof/Machine/Reporting.lean ====
section
/-! DEFINITION. The read-out operations and the report of `DUMP` (R140 to R147). -/

namespace Sys2Proof.Machine

/-- `RDSAMPLE idx` (R140). -/
def execRdSample (idx : BitVec 16) (s : State) : Result :=
  match s.rdSampleFailure idx with
  | some _ => .next s.failed
  | none => .next (s.succeeded ((s.slot idx.toNat).setWidth 32))

/-- `RDPERIOD` (R141). -/
def execRdPeriod (s : State) : Result := .next (s.succeeded s.period)

/-- `RDCOUNT` (R142). -/
def execRdCount (s : State) : Result := .next (s.succeeded (BitVec.ofNat 32 s.count.val))

/-- `Digit(i, j) = store[j][i]`, 0 or 1 (R143). -/
def State.digit (s : State) (i j : Nat) : Nat := ((s.slot j).getLsbD i).toNat

/-- `Report(state)`, the abstract report of `DUMP` on one state (R144). -/
def State.report (s : State) : Config.Report where
  period := s.period
  columns := List.range s.params.capacity
  rows := (List.range s.count.val).map fun i => (List.range s.params.capacity).map fun j => s.digit i j

/-- The reads of one row of the expansion of `DUMP`: every slot in order (R145). -/
def dumpRow (n : Nat) : List Instr := (List.range n).map fun j => .rdSample (BitVec.ofNat 16 j)

/-- The expansion of `DUMP` into commands, for capacity `n` and an answer `c` to `RDCOUNT` (R81, R145). -/
def dumpCommands (n c : Nat) : List Instr :=
  .rdPeriod :: .rdCount :: (List.range c).flatMap fun _ => dumpRow n

/-- The data of response number `k` of the expansion; a response that is not there counts as a failure, data 0. -/
def answerData (answers : List Response) (k : Nat) : BitVec 32 :=
  match answers[k]? with
  | some r => r.data
  | none => 0

/-- The report the host makes of the responses to that expansion: digit `(i, j)` is bit `i` of the response to its own
`RDSAMPLE` (R145). -/
def dumpReport (n : Nat) (answers : List Response) : Config.Report where
  period := answerData answers 0
  columns := List.range n
  rows := (List.range (answerData answers 1).toNat).map fun i =>
    (List.range n).map fun j => ((answerData answers (2 + i * n + j)).getLsbD i).toNat

end Sys2Proof.Machine
end

