-- ==== Sys2Proof/Machine/Dispatch.lean ====
section
/-! DEFINITION. One arm for each constructor of `Instr`, each a call of its meaning. -/

namespace Sys2Proof.Machine
open Sys2Proof

def exec (i : Instr) (s : State) : Host.Outcome State Fault Refusal :=
  match i with
  | .addTrace pin => Sys2Proof.Machine.execAddTrace pin s
  | .addTrig pin edge => Sys2Proof.Machine.execAddTrig pin edge s
  | .setPeriod period => Sys2Proof.Machine.execSetPeriod period s
  | .reset => Sys2Proof.Machine.execReset s
  | .start => Sys2Proof.Machine.execStart s
  | .isActive => Sys2Proof.Machine.execIsActive s
  | .isDone => Sys2Proof.Machine.execIsDone s
  | .rdSample idx => Sys2Proof.Machine.execRdSample idx s
  | .rdPeriod => Sys2Proof.Machine.execRdPeriod s
  | .rdCount => Sys2Proof.Machine.execRdCount s
  | .tick => Sys2Proof.Machine.execTick s

end Sys2Proof.Machine
end

