-- ==== Sys2Proof/Machine/Clock.lean ====
section
/-! DEFINITION. The clock cycle (R71): what the input ports carry, and what one rising edge does. -/

namespace Sys2Proof.Machine

/-- The ports in a cycle the environment has scheduled nothing for: no reset, no command, no tick (R71; log 6). -/
def Cycle.idle : Cycle := {}

/-- The next clock cycle's ports. -/
def State.nextCycle (s : State) : Cycle := s.inputs.headD Cycle.idle

/-- The environment presents `c` as the next cycle, before those already scheduled (R70). -/
def State.present (s : State) (c : Cycle) : State := { s with inputs := c :: s.inputs }

/-- The state in which the next cycle's events execute: its ports are driven and it is no longer to come. -/
def State.latch (s : State) : State := { s.beginCycle s.nextCycle with inputs := s.inputs.tail }

/-- A command word executes (R71, R83). An illegal word changes no state element and answers `ok = 0` (R78). -/
def execWord (w : CmdWord) (s : State) : Result :=
  match decode w with
  | .ok i => exec i s
  | .error _ => .next s.failed

/-- The command part of a cycle. -/
def runCommand (c : Cycle) (s : State) : Result := if c.cmdValid then execWord c.cmd s else .next s

/-- The tick part of a cycle, on the state the command left (R71, R153). -/
def runTick (c : Cycle) (s : State) : Result := if c.tick then exec .tick s else .next s

/-- The events of one cycle (R71): hardware reset alone, or the command and then the tick. -/
def runCycle (c : Cycle) (s : State) : Result :=
  if c.rst then .next s.hardwareReset else andThen (runCommand c s) (runTick c)

/-- One rising edge of `clk` (R71). -/
def clockEdge (s : State) : Result := runCycle s.nextCycle s.latch

/-- The output ports of R70 in one clock cycle. -/
structure Outputs where
  /-- `rsp_valid` and `rsp`: the response word in a cycle in which a command executes, absent where `rsp_valid` is 0. -/
  rsp : Option RspWord
  /-- `line_en[i]` in entry `i`. -/
  lineEn : Vector Bool 8
  /-- `line_sel[i]` in entry `i`; where no line is read, the moment it shows is the model's choice (log 20). -/
  lineSel : Vector Pin 8
  active : Bool
  done : Bool
deriving DecidableEq, Repr

/-- The outputs of the coming cycle, or why it stops: the levels `active` and `done` show the state before its events
(R82), the line ports the state at the moment the tick executes, the response the command that executed (R70, R71).
R70 leaves open which moment's `trace[i]` the port `line_sel[i]` shows where no line is read: in a `rst` cycle it is here
the table before the reset, in any other cycle the table after the command of that cycle (DESIGN CHOICE, log 20). -/
def State.outputs (s : State) : Except (Fault ⊕ Refusal) Outputs :=
  if s.nextCycle.rst then
    .ok { rsp := none, lineEn := Vector.ofFn (s.lineEn false), lineSel := Vector.ofFn s.lineSel,
          active := s.active, done := s.done }
  else
    match runCommand s.nextCycle s.latch with
    | .next m =>
      .ok { rsp := m.rsp.map Response.word, lineEn := Vector.ofFn (m.lineEn s.nextCycle.tick),
            lineSel := Vector.ofFn m.lineSel, active := s.active, done := s.done }
    | .fault e => .error (.inl e)
    | .refused e => .error (.inr e)

/-- The cycle that presents one port word, with the given answers on `line_val`. -/
def cycleOfPort (lineVal : Byte) : PortWord → Cycle
  | .cmd w => { cmdValid := true, cmd := w, lineVal := lineVal }
  | .strobe b => { tick := b == 1, lineVal := lineVal }

end Sys2Proof.Machine
end

