-- ==== Sys2Proof/Machine/Step.lean ====
section
/-! DEFINITION. One step of the machine: one rising edge of the clock (R71). -/

namespace Sys2Proof.Machine

/-- One step. -/
def step (s : State) : Host.Outcome State Fault Refusal := clockEdge s

/-- `s` with one more clock cycle to come, the next one, that presents the table word on its port. The answers on
`line_val` are those the state already shows. Log 6. -/
def State.withFetchWord (s : State) (nbits w : Nat) : State :=
  s.present (cycleOfPort s.lineVal (portOfTableWord nbits w))

end Sys2Proof.Machine
end

