-- ==== Sys2Proof/Machine/Run.lean ====
section
/-! DEFINITION. Runs (R14): the events, and the machine on a finite or an infinite sequence of clock cycles. State is plain
data and holds finitely many cycles to come; an infinite sequence is a function beside the state, and the environment
presents its cycles one by one, each to one `step` (log 6). -/

namespace Sys2Proof.Machine

/-- The events of R14. -/
inductive Event where
  | hardwareReset
  /-- `Tick`, carrying the oracle's answers, one for each position. -/
  | tick (answers : Byte)
  /-- `Cmd(w)`. -/
  | command (w : CmdWord)
deriving DecidableEq, Repr

/-- The clock cycle that carries one event and no other. -/
def Event.cycle : Event → Cycle
  | .hardwareReset => { rst := true }
  | .tick answers => { tick := true, lineVal := answers }
  | .command w => { cmdValid := true, cmd := w }

/-- The events one clock cycle carries, in the order of R71. -/
def Cycle.events (c : Cycle) : List Event :=
  if c.rst then [.hardwareReset]
  else (if c.cmdValid then [.command c.cmd] else []) ++ (if c.tick then [.tick c.lineVal] else [])

/-- `k` steps on the cycles the state lists. -/
def runSteps : Nat → State → Result
  | 0, s => .next s
  | k + 1, s => andThen (step s) (runSteps k)

/-- Run these cycles before any cycle already scheduled. -/
def runCycles : List Cycle → State → Result
  | [], s => .next s
  | c :: cs, s => andThen (step (s.present c)) (runCycles cs)

/-- The first `k` cycles of an infinite schedule. -/
def runSchedule (schedule : Nat → Cycle) : Nat → State → Result
  | 0, s => .next s
  | k + 1, s => andThen (runSchedule schedule k s) fun t => step (t.present (schedule k))

/-- `σ` is the run on an infinite schedule (R14): `σ k` is the state before cycle `k`, and one step leads from each state
to the next. -/
def IsRun (schedule : Nat → Cycle) (σ : Nat → State) : Prop :=
  ∀ k, step ((σ k).present (schedule k)) = .next (σ (k + 1))

end Sys2Proof.Machine
end

