-- ==== Sys2Proof/Machine/Script.lean ====
section
/-! DEFINITION. Host scripts (R80): each line is the clock cycles it stands for, run one after another, and `DUMP` is its
expansion (R81, R145). -/

namespace Sys2Proof.Machine

/-- The edge operand a script line writes; a number is an edge code (R80). -/
def scriptEdge : ScriptEdge → Edge
  | .rising => .rising
  | .falling => .falling
  | .high => .high
  | .low => .low
  | .number n => Edge.ofCode (BitVec.ofNat 3 n)

/-- The cycle that carries one operation on its port; a command's cycle has no tick. -/
def commandCycle (i : Instr) : Cycle := cycleOfPort 0 (encode i)

/-- The answer the line form gives for a line identifier: the level listed for it, 0 if none is (R80). -/
def lineLevel (levels : List (Nat × Bool)) (pin : Pin) : Bool :=
  match levels.find? fun l => l.1 == pin.toNat with
  | some l => l.2
  | none => false

/-- Eight answers as `line_val`. -/
def lineValOf (level : Nat → Bool) : Byte := BitVec.ofFnLE fun i : Fin 8 => level i.val

/-- The clock cycles of one script line on a state (R80); `DUMP` is its expansion with no event in between (log 15). -/
def scriptCycles (s : State) : ScriptLine → List Cycle
  | .hwReset => [{ rst := true }]
  | .addTrace pin => [commandCycle (.addTrace (BitVec.ofNat 8 pin))]
  | .addTrig pin edge => [commandCycle (.addTrig (BitVec.ofNat 8 pin) (scriptEdge edge))]
  | .setPeriod period => [commandCycle (.setPeriod (BitVec.ofNat 32 period))]
  | .reset => [commandCycle .reset]
  | .start => [commandCycle .start]
  | .isActive => [commandCycle .isActive]
  | .isDone => [commandCycle .isDone]
  | .rdSample idx => [commandCycle (.rdSample (BitVec.ofNat 16 idx))]
  | .rdPeriod => [commandCycle .rdPeriod]
  | .rdCount => [commandCycle .rdCount]
  | .tickLines levels => [{ tick := true, lineVal := lineValOf fun i => lineLevel levels (s.trace.getD i 0) }]
  | .tickPositions answers => [{ tick := true, lineVal := lineValOf fun i => answers.getD i false }]
  | .dump => (dumpCommands s.params.capacity s.count.val).map commandCycle

/-- Why a script does not run to its end. -/
inductive ScriptStop where
  /-- An operand is out of the ranges of R80. -/
  | illFormed (line : ScriptLine)
  | fault (e : Fault)
  | refused (e : Refusal)
deriving DecidableEq, Repr

/-- Run a script from a state. -/
def runScript : List ScriptLine → State → Except ScriptStop State
  | [], s => .ok s
  | l :: ls, s =>
    if l.wellFormed s.count.val then
      match runCycles (scriptCycles s l) s with
      | .next t => runScript ls t
      | .fault e => .error (.fault e)
      | .refused e => .error (.refused e)
    else .error (.illFormed l)

/-- The responses to operations executed one after another with nothing in between; a tick has none. -/
def answersTo : List Instr → State → List Response
  | [], _ => []
  | i :: is, s =>
    match exec i { s with rsp := none } with
    | .next t => t.rsp.toList ++ answersTo is t
    | .fault _ => []
    | .refused _ => []

end Sys2Proof.Machine
end

