-- ==== Sys2Proof/Safety.lean ====
section
/-! DEFINITION. What claims are stated in: the invariants of the reachable states (R26, R38), runs of ticks, and completed
captures (R191). -/

namespace Sys2Proof.Machine

/-- Every byte of the store holds a value (R38 item 7). -/
def State.StoreSpecified (s : State) : Prop :=
  ∀ j, j < s.params.capacity → (Memory.byteAt? s.store j).isSome = true

/-- The mask invariant of R26. -/
structure State.MaskInv (s : State) : Prop where
  prev_within : s.expectedPrev &&& ~~~s.enabled = 0
  cur_within : s.expectedCur &&& ~~~s.enabled = 0
  enabled_registered : ∀ i : Fin 8, s.enabled.getLsbD i = true → i.val < s.count.val

/-- The invariant of the reachable states: R38, with the parameters in the ranges of R8, the store's canonical form, and
the zeros of a capture's unwritten slots. -/
structure State.Inv (s : State) : Prop where
  params_valid : s.params.Valid
  /-- R38 item 2. -/
  mask : s.MaskInv
  /-- R38 item 4. -/
  cursor_waiting : s.state = .waitingForTrigger → s.cursor = 2
  /-- R38 item 5. -/
  cursor_tracing : s.state = .tracing → 2 ≤ s.cursor ∧ s.cursor < s.params.capacity
  /-- R38 item 6. -/
  cursor_done : s.state = .done → s.cursor = 0 ∨ s.cursor = s.params.capacity
  /-- R38 item 7, and the same of a completed capture. -/
  store_specified : s.cursor ≠ 0 → s.StoreSpecified
  /-- R38 item 8. -/
  trace_in_range : ∀ i : Fin 8, i.val < s.count.val →
    s.params.pinMin ≤ s.trace[i].toNat ∧ s.trace[i].toNat ≤ s.params.pinMax
  store_canonical : Memory.wf s.store = true
  store_in_range : ∀ c ∈ s.store, c.1 < s.params.capacity
  /-- While a capture waits for its trigger, the slots behind the window read `0x00` (R183, U5). -/
  unwritten_waiting : s.state = .waitingForTrigger → ∀ j, 2 ≤ j → j < s.params.capacity → s.slot j = 0
  /-- While a capture runs, the slots from the cursor on read `0x00` (R146, R183, U5). -/
  unwritten_tracing : s.state = .tracing → ∀ j, s.cursor ≤ j → j < s.params.capacity → s.slot j = 0

/-- Only the lowest position of a line is enabled for triggering (R96). -/
def State.FirstPositionsEnabled (s : State) : Prop :=
  ∀ i : Fin 8, s.enabled.getLsbD i = true → ∀ k : Fin 8, k < i → s.trace[k] ≠ s.trace[i]

/-- Every byte that was written has its bits at and above `count` 0 (R38, last paragraph). -/
def State.SamplesWithinCount (s : State) : Prop :=
  ∀ j v, Memory.byteAt? s.store j = some v → ∀ b, s.count.val ≤ b → v.getLsbD b = false

/-- What hardware reset leaves (R37, R170): any `trace` and `first`, no byte of the store with a value, any parameters in
the ranges of R8. -/
structure State.AfterHardwareReset (s : State) : Prop where
  state : s.state = .done
  period : s.period = 0
  count : s.count = 0
  cursor : s.cursor = 0
  enabled : s.enabled = 0
  expectedPrev : s.expectedPrev = 0
  expectedCur : s.expectedCur = 0
  store : s.store = []
  violated : s.violated = false
  params : s.params.Valid

/-- The states a run reaches from hardware reset, under any schedule of events (R14, R38). -/
inductive Reachable : State → Prop where
  | reset (s : State) (h : s.AfterHardwareReset) : Reachable s
  | step (s t : State) (h : Reachable s) (e : Machine.step s = .next t) : Reachable t
  /-- The environment may present any cycle next, whatever is scheduled. -/
  | present (s : State) (c : Cycle) (h : Reachable s) : Reachable (s.present c)

/-- A completed capture (R191), as far as one state shows it: `DONE` with the cursor at `N`. -/
def State.Completed (s : State) : Prop := s.state = .done ∧ s.cursor = s.params.capacity

/-- `DONE` with nothing captured since the last reset (R191). -/
def State.Idle (s : State) : Prop := s.state = .done ∧ s.cursor = 0

/-- `k` ticks one after another, tick number `j` (from 1) with the answers `levels j`. -/
def tickRun (levels : Nat → Byte) : Nat → State → Result
  | 0, s => .next s
  | k + 1, s => andThen (tickRun levels k s) fun t => exec .tick (t.presentLines (levels (k + 1)))

/-- The sample `Pack` returns on a state whose lines answer `lineVal` (R13). -/
def State.sample (s : State) (lineVal : Byte) : Byte := packUpTo lineVal s.count.val

/-- The comparator holds of the samples of ticks `k - 1` and `k` (R123). -/
def State.firesAt (s : State) (levels : Nat → Byte) (k : Nat) : Bool :=
  trig s.enabled s.expectedPrev s.expectedCur (s.sample (levels (k - 1))) (s.sample (levels k))

/-- The command that this cycle executes, if any (R71). -/
def Cycle.command (c : Cycle) : Option Instr :=
  if c.rst || !c.cmdValid then none
  else
    match decode c.cmd with
    | .ok i => some i
    | .error _ => none

end Sys2Proof.Machine
end

