-- ==== Sys2Proof/Certificates/Slice0/Obligations.lean ====
section
/-! DEFINITION. The statements for the provers. Every one quantifies over all states, so over every capacity and pin
range, every answer of the lines and every schedule; a premise names what it leaves out. -/

open Sys2Proof Sys2Proof.Machine

/-! ### Encoding -/

/-- `Decode(Encode(c)) = c` and `Encode(Decode(w)) = w` (30_encoding.md section 10), for all operations and both ports. -/
def Obligations.DecodeEncodeAgree : Prop :=
  (∀ i : Instr, decodePort (encode i) = .ok i) ∧ (∀ (p : PortWord) (i : Instr), decodePort p = .ok i → encode i = p)

/-- The rows of R75 are pairwise disjoint, a word is legal exactly when a row selects it, and it decodes to the operation of
that row. -/
def Obligations.DecoderFollowsOpcodeTable : Prop :=
  (∀ w : CmdWord, ∀ r ∈ opcodeTable, ∀ r' ∈ opcodeTable, r.selects w = true → r'.selects w = true → r = r') ∧
  (∀ w : CmdWord, (∃ i, decode w = .ok i) ↔ ∃ r ∈ opcodeTable, r.selects w = true) ∧
  (∀ (w : CmdWord) (i : Instr), decode w = .ok i → ∃ r ∈ opcodeTable, r.selects w = true ∧ r.mnemonic = i.mnemonic)

/-- Words written out in 95_test_vectors.md V0 decode to the operations they stand for there. -/
def Obligations.WrittenWordsDecode : Prop :=
  decode 0x10000000D = .ok (.addTrace 13) ∧ decode 0x200000102 = .ok (.addTrig 2 .falling) ∧
  decode 0x200000504 = .ok (.addTrig 4 (.unrecognised 1)) ∧ decode 0x300000064 = .ok (.setPeriod 100) ∧
  decode 0x400000000 = .ok .reset ∧ decode 0x500000000 = .ok .start ∧ decode 0x8000001F3 = .ok (.rdSample 499) ∧
  decode 0xA00000000 = .ok .rdCount ∧ decode 0x000000000 = .error (.opcodeUnassigned 0) ∧
  decode 0x200000800 = .error (.reservedBitSet 2) ∧ decodePort (.strobe 1) = .ok .tick

/-- A command word that no row of the table selects changes no state element and answers `ok = 0`, `data = 0` (R78). The
cycle's own ports (what `latch` takes) apart, the state is as before. -/
def Obligations.IllegalWordChangesNothing : Prop :=
  ∀ s : State, s.nextCycle.rst = false → s.nextCycle.cmdValid = true → s.nextCycle.tick = false →
    (∀ r ∈ opcodeTable, r.selects s.nextCycle.cmd = false) →
    step s = .next { s with
      inputs := s.inputs.tail, lineVal := s.nextCycle.lineVal, lineReads := [], rsp := some { ok := false, data := 0 } }

/-- The response word: `rsp[32] = ok`, `rsp[31:0] = data`. -/
def Obligations.ResponseWordLayout : Prop :=
  ∀ r : Response, r.word.getLsbD 32 = r.ok ∧ r.word.extractLsb' 0 32 = r.data

/-! ### The clock cycle -/

/-- A step runs the decoded command: the cycle's ports are taken in, then the operation executes. -/
def Obligations.StepRunsDecodedCommand : Prop :=
  ∀ (s : State) (i : Instr), s.nextCycle.rst = false → s.nextCycle.cmdValid = true → s.nextCycle.tick = false →
    decode s.nextCycle.cmd = .ok i →
    step s = exec i { s with inputs := s.inputs.tail, lineVal := s.nextCycle.lineVal, rsp := none, lineReads := [] }

/-- A step runs the tick of its cycle. -/
def Obligations.StepRunsTick : Prop :=
  ∀ s : State, s.nextCycle.rst = false → s.nextCycle.cmdValid = false → s.nextCycle.tick = true →
    step s = exec .tick { s with inputs := s.inputs.tail, lineVal := s.nextCycle.lineVal, rsp := none, lineReads := [] }

/-- The whole of R71: hardware reset alone; else the command (a word that does not decode only answers a failure), then the
tick on the state the command left; with neither, nothing changes but the cycle's own ports. That the command comes before
the tick of its cycle is the spec's decision D10, resting on general knowledge (K2): log 16, PRESUMED. -/
def Obligations.ClockCycleOrder : Prop :=
  ∀ s a : State,
    a = { s with inputs := s.inputs.tail, lineVal := s.nextCycle.lineVal, rsp := none, lineReads := [] } →
    step s =
      if s.nextCycle.rst then .next a.hardwareReset
      else
        andThen
          (if s.nextCycle.cmdValid then
            match decode s.nextCycle.cmd with
            | .ok i => exec i a
            | .error _ => .next { a with rsp := some { ok := false, data := 0 } }
          else .next a)
          fun m => if s.nextCycle.tick then exec .tick m else .next m

/-- What a hardware reset leaves: the values of R170, nothing specified in `trace`, `first` and the store (they read as
free values, the model's reading of "unspecified", logs 4 and 5), no response, and the parameters as they were. -/
def Obligations.HardwareResetLeaves : Prop :=
  ∀ s : State, s.nextCycle.rst = true → ∃ t, step s = .next t ∧
    t.state = .done ∧ t.period = 0 ∧ t.count = 0 ∧ t.cursor = 0 ∧
    t.enabled = 0 ∧ t.expectedPrev = 0 ∧ t.expectedCur = 0 ∧ t.violated = false ∧ t.rsp = none ∧ t.lineReads = [] ∧
    (∀ i : Fin 8, t.trace[i] = Config.traceDraw t.epoch i) ∧ t.first = Config.firstDraw t.epoch ∧
    (∀ j, t.slot j = Config.storeDraw t.epoch j) ∧
    t.params = s.params ∧ t.inputs = s.inputs.tail ∧ t.epoch = s.epoch + 1

/-- A command and a tick in one cycle (60_exceptions.md section 3): `START` gives a session whose first tick is that tick,
`RESET` a no-op tick, `RDSAMPLE` the byte from before the tick. The order is the spec's decision D10, resting on general
knowledge (K2): the model's presumption, log 16. -/
def Obligations.SameCycleCommandFirst : Prop :=
  ∀ s : State, s.Inv → s.nextCycle.rst = false → s.nextCycle.cmdValid = true → s.nextCycle.tick = true →
    (decode s.nextCycle.cmd = .ok .start → ∃ t, step s = .next t ∧ t.state = .waitingForTrigger ∧ t.first = false ∧
      t.cursor = 2 ∧ t.slot 0 = 0 ∧ t.slot 1 = s.sample s.nextCycle.lineVal) ∧
    (decode s.nextCycle.cmd = .ok .reset → step s = exec .reset s.latch) ∧
    (∀ idx : BitVec 16, decode s.nextCycle.cmd = .ok (.rdSample idx) → idx.toNat < s.params.capacity →
      ∃ t, step s = .next t ∧ t.rsp = some { ok := true, data := (s.slot idx.toNat).setWidth 32 })

/-- The output ports of a cycle and the step it takes: the same response, and a line enabled exactly where the step reads
one (R70). In a cycle with a command and a tick the line ports are those after the command (log 16, PRESUMED). -/
def Obligations.OutputPortsMatchStep : Prop :=
  ∀ (s t : State) (o : Outputs), step s = .next t → s.outputs = .ok o →
    o.rsp = t.rsp.map Response.word ∧
    ∀ i : Fin 8, o.lineEn[i] = true ↔ ∃ r ∈ t.lineReads, r.position = i ∧ r.pin = o.lineSel[i]

/-- `active` and `done` are functions of the state before the cycle's events and equal what `ISACTIVE` and `ISDONE` would
answer as the first event of the cycle (R82). -/
def Obligations.LevelOutputsEqualQueries : Prop :=
  ∀ (s : State) (o : Outputs), s.outputs = .ok o →
    o.active = (s.state.code == 0b10) ∧ o.done = (s.state.code == 0b00) ∧
    exec .isActive s.latch = .next { s.latch with rsp := some { ok := true, data := if o.active then 1 else 0 } } ∧
    exec .isDone s.latch = .next { s.latch with rsp := some { ok := true, data := if o.done then 1 else 0 } } ∧
    s.latch.hardwareReset.active = false ∧ s.latch.hardwareReset.done = true

/-! ### Runs -/

/-- Each event of R14 is one step that maps a state of the invariant to the next; a command yields one response, and no other
event yields any. A cycle that carries no event changes nothing but the cycle's own ports. -/
def Obligations.EachEventIsOneStep : Prop :=
  (∀ (s : State) (e : Event), s.Inv →
    ∃ t, step (s.present e.cycle) = .next t ∧ t.inputs = s.inputs ∧ (t.rsp.isSome = true ↔ ∃ w, e = .command w)) ∧
  (∀ (s : State) (c : Cycle), c.events = [] →
    step (s.present c) = .next { s with lineVal := c.lineVal, rsp := none, lineReads := [] })

/-- A cycle does what its events do one after another (R14, R71), but for the ports of the last cycle. That the command
comes first is the order of log 16 (PRESUMED). -/
def Obligations.CycleIsItsEvents : Prop :=
  ∀ (s t : State) (c : Cycle), step (s.present c) = .next t →
    ∃ u, runCycles (c.events.map Event.cycle) s = .next u ∧
      t = { u with lineVal := t.lineVal, rsp := t.rsp, lineReads := t.lineReads }

/-- Every infinite sequence of cycles, so every infinite sequence of events (R14), has exactly one run from a state of the
invariant: it never stops, and every state on it has the invariant. -/
def Obligations.EveryInfiniteScheduleRuns : Prop :=
  ∀ (schedule : Nat → Cycle) (s : State), s.Inv →
    ∃ σ : Nat → State, σ 0 = s ∧ IsRun schedule σ ∧ (∀ k, (σ k).Inv ∧ (σ k).inputs = s.inputs) ∧
      (∀ k, runSchedule schedule k s = .next (σ k)) ∧ ∀ σ', σ' 0 = s → IsRun schedule σ' → σ' = σ

/-- Presenting the cycles of a schedule one by one is running `step` on a state in which they are listed: any first part of
an infinite run is what the machine does by itself on a finite list (log 6). -/
def Obligations.PresentedCyclesAreListedCycles : Prop :=
  ∀ (schedule : Nat → Cycle) (n : Nat) (s : State),
    runSchedule schedule n s = runCycles ((List.range n).map schedule) s ∧
    runSteps n { s with inputs := (List.range n).map schedule ++ s.inputs } = runSchedule schedule n s

/-! ### Configuration -/

/-- `ADDTRACE` (R90): a pin in range and a table not full give the line the next position; else the operation fails. All
else stays, but for the protocol mark of R192, which a call outside `DONE` sets, a failing one too: the model's reading
(log 9, DEDUCED). -/
def Obligations.AddTraceRegistersOrFails : Prop :=
  ∀ (s : State) (pin : Pin),
    ((s.params.pinMin ≤ pin.toNat ∧ pin.toNat ≤ s.params.pinMax) ∧ s.count.val < 8 →
      ∃ t, exec (.addTrace pin) s = .next t ∧ t.count.val = s.count.val + 1 ∧
        (∀ i : Fin 8, t.trace[i] = if i.val = s.count.val then pin else s.trace[i]) ∧
        t = { s with
          trace := t.trace, count := t.count, violated := s.violated || s.state != .done
          rsp := some { ok := true, data := 0 } }) ∧
    (¬((s.params.pinMin ≤ pin.toNat ∧ pin.toNat ≤ s.params.pinMax) ∧ s.count.val < 8) →
      exec (.addTrace pin) s = .next { s with
        violated := s.violated || s.state != .done, rsp := some { ok := false, data := 0 } })

/-- `ADDTRIG` (R93) with the edge table (R94): the lowest registered position of the line gets the edge's two bits, and no
other bit changes; an unregistered line or an edge that is not recognised fails and changes no mask. A call outside `DONE`
sets the protocol mark of R192, a failing one too: the model's reading (log 9, DEDUCED). -/
def Obligations.AddTrigSetsOrFails : Prop :=
  ∀ (s : State) (pin : Pin) (edge : Edge),
    (∀ (i : Fin 8) (p c : Bool), i.val < s.count.val → s.trace[i] = pin → (∀ k : Fin 8, k < i → s.trace[k] ≠ pin) →
      (edge = .rising ∧ p = false ∧ c = true ∨ edge = .falling ∧ p = true ∧ c = false ∨
        edge = .high ∧ p = true ∧ c = true ∨ edge = .low ∧ p = false ∧ c = false) →
      ∃ t, exec (.addTrig pin edge) s = .next t ∧
        (∀ b : Fin 8, t.enabled.getLsbD b = if b = i then true else s.enabled.getLsbD b) ∧
        (∀ b : Fin 8, t.expectedPrev.getLsbD b = if b = i then p else s.expectedPrev.getLsbD b) ∧
        (∀ b : Fin 8, t.expectedCur.getLsbD b = if b = i then c else s.expectedCur.getLsbD b) ∧
        t = { s with
          enabled := t.enabled, expectedPrev := t.expectedPrev, expectedCur := t.expectedCur
          violated := s.violated || s.state != .done, rsp := some { ok := true, data := 0 } }) ∧
    ((∀ k : Fin 8, k.val < s.count.val → s.trace[k] ≠ pin) ∨ (∃ b, edge = .unrecognised b) →
      exec (.addTrig pin edge) s = .next { s with
        violated := s.violated || s.state != .done, rsp := some { ok := false, data := 0 } })

/-- A second `ADDTRIG` for a line replaces what an earlier one set there: the outcome is that of the second alone (R95). -/
def Obligations.LaterTriggerReplaces : Prop :=
  ∀ (s t u : State) (pin : Pin) (e e' : Edge), edgeBits e' ≠ none →
    exec (.addTrig pin e) s = .next t → exec (.addTrig pin e') s = .next u → exec (.addTrig pin e') t = .next u

/-- `SETPERIOD` (R97) stores any value and touches nothing else. -/
def Obligations.SetPeriodStores : Prop :=
  ∀ (s : State) (period : BitVec 32),
    exec (.setPeriod period) s = .next { s with period := period, rsp := some { ok := true, data := 0 } }

/-- `RESET` (R99): seven elements are cleared; the store, the table entries and the first-sample mark stay. -/
def Obligations.ResetClearsConfiguration : Prop :=
  ∀ s : State, exec .reset s = .next { s with
    state := .done, period := 0, count := 0, cursor := 0, enabled := 0, expectedPrev := 0, expectedCur := 0
    rsp := some { ok := true, data := 0 } }

/-- None of the three configuration calls tests `state` (R102): from another state, the same outcome; the protocol mark of
R192 alone tells the states apart; that a failing call sets it too is the model's reading (log 9, DEDUCED). -/
def Obligations.ConfigurationIgnoresState : Prop :=
  ∀ (s t : State) (q : Session) (i : Instr), exec i s = .next t →
    ((∃ pin, i = .addTrace pin) ∨ (∃ pin edge, i = .addTrig pin edge) →
      exec i { s with state := q } = .next { t with state := q, violated := s.violated || q != .done }) ∧
    ((∃ period, i = .setPeriod period) → exec i { s with state := q } = .next { t with state := q })

/-- The period drives nothing (R98): every operation but the ones that write or return it does the same whatever it is. -/
def Obligations.PeriodDrivesNothing : Prop :=
  ∀ (s t : State) (p : BitVec 32) (i : Instr), i ≠ .rdPeriod → i ≠ .reset → (∀ q, i ≠ .setPeriod q) →
    exec i s = .next t → exec i { s with period := p } = .next { t with period := p }

/-- No operation reads a stale entry of the table (R21). -/
def Obligations.StaleEntriesNotRead : Prop :=
  ∀ (s t : State) (tr : Vector Pin 8) (i : Instr), (∀ k : Fin 8, k.val < s.count.val → tr[k] = s.trace[k]) →
    exec i s = .next t → ∃ tr' : Vector Pin 8, exec i { s with trace := tr } = .next { t with trace := tr' } ∧
      ∀ k : Fin 8, k.val < t.count.val → tr'[k] = t.trace[k]

/-- The first-sample mark matters in `WAITING_FOR_TRIGGER` only, and every entry there sets it (R31). -/
def Obligations.FirstMarkUnobservable : Prop :=
  ∀ (s t : State) (b : Bool) (i : Instr), s.state ≠ .waitingForTrigger → exec i s = .next t →
    ∃ f, exec i { s with first := b } = .next { t with first := f } ∧ (t.state = .waitingForTrigger → f = t.first)

/-! ### Capture -/

/-- `START` (R110): cursor 2, every slot `0x00`, the mark set, armed; the configuration stays. -/
def Obligations.StartArms : Prop :=
  ∀ s : State, ∃ t, exec .start s = .next t ∧ (∀ j, j < s.params.capacity → t.slot j = 0) ∧
    t = { s with
      cursor := 2, store := t.store, first := true, state := .waitingForTrigger, rsp := some { ok := true, data := 0 } }

/-- `Pack` (R13): bit `b` of the sample is 1 exactly when the oracle call for position `b` was made and answered high, so
the bits from `count` up are 0; there are exactly `count` calls. -/
def Obligations.PackFoldsOracleCalls : Prop :=
  ∀ s : State, s.oracleCalls.length = s.count.val ∧
    ∀ b : Fin 8,
      (s.pack.getLsbD b = true ↔ ∃ r ∈ s.oracleCalls, r.position = b ∧ r.level = true) ∧
      (s.count.val ≤ b.val → s.pack.getLsbD b = false)

/-- `TICK` in `WAITING_FOR_TRIGGER` (R114): slot 1 moves to slot 0, the new sample stands in slot 1, every other slot
stays; the mark is cleared; the state becomes `TRACING` exactly when the mark was clear and the comparator holds of the new
window. It completes whenever the store has slots 0 and 1. -/
def Obligations.TickWaiting : Prop :=
  ∀ s : State, s.state = .waitingForTrigger → 1 < s.params.capacity →
    ∃ t, exec .tick s = .next t ∧ t.slot 0 = s.slot 1 ∧ t.slot 1 = s.pack ∧ (∀ j, 1 < j → t.slot j = s.slot j) ∧
      (t.state = .tracing ↔
        s.first = false ∧ s.expectedPrev = (s.enabled &&& s.slot 1) ∧ s.expectedCur = (s.enabled &&& s.pack)) ∧
      (t.state = .tracing ∨ t.state = .waitingForTrigger) ∧
      t = { s with store := t.store, first := false, state := t.state, lineReads := t.lineReads }

/-- `TICK` in `TRACING` (R118): the sample goes to the slot at the cursor, every other slot stays, the cursor advances, and
the state becomes `DONE` exactly when it reaches `N`. It completes whenever the cursor is inside the store. -/
def Obligations.TickTracing : Prop :=
  ∀ s : State, s.state = .tracing → s.cursor < s.params.capacity →
    ∃ t, exec .tick s = .next t ∧ t.slot s.cursor = s.pack ∧ (∀ j, j ≠ s.cursor → t.slot j = s.slot j) ∧
      t = { s with
        store := t.store, cursor := s.cursor + 1
        state := if s.cursor + 1 = s.params.capacity then .done else .tracing
        lineReads := t.lineReads }

/-- `TICK` in `DONE` (R120): nothing changes and no line is read. -/
def Obligations.TickDoneIsNoOp : Prop :=
  ∀ s : State, s.state = .done → exec .tick s = .next s ∧ ∀ (tick : Bool) (i : Fin 8), s.lineEn tick i = false

/-- A working tick calls the oracle once for each registered position, ascending, and no other operation calls it (R61). -/
def Obligations.OracleCallsOfTick : Prop :=
  (∀ s t : State, s.state ≠ .done → exec .tick s = .next t → t.lineReads.length = s.count.val ∧
    ∀ k : Fin 8, k.val < s.count.val →
      t.lineReads[k.val]? = some { position := k, pin := s.trace[k], level := s.lineVal.getLsbD k }) ∧
  (∀ (s t : State) (i : Instr), (i = .tick → s.state = .done) → exec i s = .next t → t.lineReads = s.lineReads)

/-- The comparator (41_capture.md section 3): the conjunction of the per-line conditions under the mask invariant; false
for every pair of samples when the invariant is broken; true when no line is enabled; one line's bit pair for each edge. -/
def Obligations.ComparatorProperties : Prop :=
  (∀ en ep ec s0 s1 : Byte, ep &&& ~~~en = 0 → ec &&& ~~~en = 0 →
    (trig en ep ec s0 s1 = true ↔ ∀ i : Fin 8, en.getLsbD i = true →
      s0.getLsbD i = ep.getLsbD i ∧ s1.getLsbD i = ec.getLsbD i)) ∧
  (∀ en ep ec s0 s1 : Byte, ep &&& ~~~en ≠ 0 ∨ ec &&& ~~~en ≠ 0 → trig en ep ec s0 s1 = false) ∧
  (∀ s0 s1 : Byte, trig 0 0 0 s0 s1 = true) ∧
  (∀ (i : Fin 8) (p c : Bool) (s0 s1 : Byte),
    trig (assignBit 0 i true) (assignBit 0 i p) (assignBit 0 i c) s0 s1 = true ↔
      s0.getLsbD i = p ∧ s1.getLsbD i = c)

/-- The first tick after `START` never triggers (R115): it leaves `0x00` in slot 0 and the first real sample in slot 1, and
clears the mark. -/
def Obligations.FirstTickNeverTriggers : Prop :=
  ∀ (s a : State) (levels : Byte), s.params.Valid → exec .start s = .next a →
    ∃ t, exec .tick (a.presentLines levels) = .next t ∧ t.state = .waitingForTrigger ∧ t.first = false ∧
      t.slot 0 = 0 ∧ t.slot 1 = s.sample levels

/-- From the triggering tick, exactly `N - 2` ticks are spent in `TRACING`; further ticks are no-ops and the store is
unchanged (R119). -/
def Obligations.CompletionTakesCapacityLessTwo : Prop :=
  ∀ (s : State) (levels : Nat → Byte), s.state = .tracing → s.cursor = 2 → 3 ≤ s.params.capacity →
    (∀ k, k < s.params.capacity - 2 → ∃ t, tickRun levels k s = .next t ∧ t.state = .tracing ∧ t.cursor = k + 2) ∧
    ∃ u, tickRun levels (s.params.capacity - 2) s = .next u ∧ u.state = .done ∧ u.cursor = s.params.capacity ∧
      u.slot (s.params.capacity - 1) = s.sample (levels (s.params.capacity - 2)) ∧
      ∀ k, ∃ t, tickRun levels (s.params.capacity - 2 + k) s = .next t ∧ t = { u with lineVal := t.lineVal }

/-- What a completed capture contains (41_capture.md section 5): if `T ≥ 2` is the first tick after `START` whose window
fires, the state is `TRACING` after tick `T`, and after tick `T + N - 2` it is `DONE` with the `N` consecutive samples of
ticks `T - 1` to `T + N - 2` in the store. -/
def Obligations.CompletedCaptureHoldsWindow : Prop :=
  ∀ (s a : State) (levels : Nat → Byte) (T : Nat), s.params.Valid → exec .start s = .next a → 2 ≤ T →
    a.firesAt levels T = true → (∀ k, 2 ≤ k → k < T → a.firesAt levels k = false) →
    (∃ u, tickRun levels T a = .next u ∧ u.state = .tracing ∧ u.cursor = 2) ∧
    ∃ t, tickRun levels (T + s.params.capacity - 2) a = .next t ∧ t.Completed ∧
      ∀ j, j < s.params.capacity → t.slot j = a.sample (levels (T + j - 1))

/-- No timeout (41_capture.md section 8): while no window fires, every tick completes and the engine waits on. -/
def Obligations.NoTriggerWaitsForever : Prop :=
  ∀ (s a : State) (levels : Nat → Byte) (n : Nat), s.params.Valid → exec .start s = .next a →
    (∀ k, 2 ≤ k → k ≤ n → a.firesAt levels k = false) →
    ∃ t, tickRun levels n a = .next t ∧ t.state = .waitingForTrigger ∧ t.cursor = 2

/-- Free run (41_capture.md section 5): with no line enabled the store holds the samples of the first `N` ticks after
`START`, and `DONE` is reached on tick `N` exactly. -/
def Obligations.FreeRunFillsInCapacityTicks : Prop :=
  ∀ (s a : State) (levels : Nat → Byte), s.params.Valid → s.enabled = 0 → s.expectedPrev = 0 → s.expectedCur = 0 →
    exec .start s = .next a → ∀ k, ∃ t, tickRun levels k a = .next t ∧ (t.state = .done ↔ s.params.capacity ≤ k) ∧
      (s.params.capacity ≤ k → ∀ j, j < s.params.capacity → t.slot j = a.sample (levels (j + 1)))

/-- Every reachable mask can be satisfied by some levels of the lines, one level for each line in each of the two samples
(41_capture.md section 8). -/
def Obligations.EveryMaskCanFire : Prop :=
  ∀ s : State, s.Inv → s.FirstPositionsEnabled → ∃ before after : Pin → Bool, ∀ v0 v1 : Byte,
    (∀ i : Fin 8, v0.getLsbD i = before s.trace[i]) → (∀ i : Fin 8, v1.getLsbD i = after s.trace[i]) →
    trig s.enabled s.expectedPrev s.expectedCur (s.sample v0) (s.sample v1) = true

/-- On every run, the slots a capture has not written read `0x00` (42_reporting.md section 4, hazard R183, U5): from index 2
on while it waits for its trigger, from the cursor on while it traces; and `RDSAMPLE` answers that. -/
def Obligations.UnwrittenSlotsReadZero : Prop :=
  ∀ (s : State) (idx : BitVec 16), Reachable s → idx.toNat < s.params.capacity →
    (s.state = .waitingForTrigger ∧ 2 ≤ idx.toNat ∨ s.state = .tracing ∧ s.cursor ≤ idx.toNat) →
      s.slot idx.toNat = 0 ∧ exec (.rdSample idx) s = .next { s with rsp := some { ok := true, data := 0 } }

/-! ### Queries and reports -/

/-- `ISACTIVE` is true exactly in `TRACING`, `ISDONE` exactly in `DONE` (R124, R125); nothing but the response changes. -/
def Obligations.StatusQueries : Prop :=
  ∀ s : State,
    exec .isActive s = .next { s with rsp := some { ok := true, data := if s.state = .tracing then 1 else 0 } } ∧
    exec .isDone s = .next { s with rsp := some { ok := true, data := if s.state = .done then 1 else 0 } }

/-- `RDSAMPLE` (R140): the slot's byte, zero-extended, for an index inside the store; else a failure. A slot nothing has
written since hardware reset reads as a free value, whatever it is (log 4). -/
def Obligations.ReadSample : Prop :=
  ∀ (s : State) (idx : BitVec 16),
    (idx.toNat < s.params.capacity →
      exec (.rdSample idx) s = .next { s with rsp := some { ok := true, data := (s.slot idx.toNat).setWidth 32 } }) ∧
    (s.params.capacity ≤ idx.toNat → exec (.rdSample idx) s = .next { s with rsp := some { ok := false, data := 0 } })

/-- `RDPERIOD` and `RDCOUNT` (R141, R142) answer the register and change nothing else. -/
def Obligations.ReadRegisters : Prop :=
  ∀ s : State,
    exec .rdPeriod s = .next { s with rsp := some { ok := true, data := s.period } } ∧
    exec .rdCount s = .next { s with rsp := some { ok := true, data := BitVec.ofNat 32 s.count.val } }

/-- The report (R144): the period, the indices 0 to N-1, one row for each registered line, each row one digit for each
slot, digit `(i, j)` being bit `i` of slot `j`; the trigger mask plays no part. -/
def Obligations.ReportShape : Prop :=
  ∀ s : State, s.report.period = s.period ∧ s.report.columns = List.range s.params.capacity ∧
    s.report.rows.length = s.count.val ∧ (∀ row ∈ s.report.rows, row.length = s.params.capacity) ∧
    (∀ i j, i < s.count.val → j < s.params.capacity →
      ∃ row, s.report.rows[i]? = some row ∧ row[j]? = some (if (s.slot j).getLsbD i then 1 else 0)) ∧
    ∀ en ep ec : Byte, State.report { s with enabled := en, expectedPrev := ep, expectedCur := ec } = s.report

/-- The expansion of `DUMP`, with any number of ticks between its reads while the engine is `DONE`, yields the report of
that state (42_reporting.md section 4). -/
def Obligations.DumpInDoneYieldsReport : Prop :=
  ∀ (s : State) (events : List Instr), s.state = .done → s.params.capacity ≤ 65536 →
    events.filter Instr.isCommand = dumpCommands s.params.capacity s.count.val →
    dumpReport s.params.capacity (answersTo events s) = s.report

/-! ### Whole-machine rules -/

/-- Which operation may change which element (R27), the slots it may change, and that no operation changes the parameters,
the schedule, the line answers or the reset count. -/
def Obligations.WritersOfEachElement : Prop :=
  ∀ (s t : State) (i : Instr), exec i s = .next t →
    (t.trace ≠ s.trace → ∃ pin, i = .addTrace pin) ∧
    (t.count ≠ s.count → (∃ pin, i = .addTrace pin) ∨ i = .reset) ∧
    (t.enabled ≠ s.enabled ∨ t.expectedPrev ≠ s.expectedPrev ∨ t.expectedCur ≠ s.expectedCur →
      (∃ pin edge, i = .addTrig pin edge) ∨ i = .reset) ∧
    (t.store ≠ s.store → i = .start ∨ i = .tick ∧ s.state ≠ .done) ∧
    (i = .tick → s.state = .waitingForTrigger → ∀ j, 1 < j → t.slot j = s.slot j) ∧
    (i = .tick → s.state = .tracing → ∀ j, j ≠ s.cursor → t.slot j = s.slot j) ∧
    (t.cursor ≠ s.cursor → i = .reset ∨ i = .start ∨ i = .tick ∧ s.state = .tracing) ∧
    (t.state ≠ s.state → i = .reset ∨ i = .start ∨ i = .tick ∧ s.state ≠ .done) ∧
    (t.first ≠ s.first → i = .start ∨ i = .tick ∧ s.state = .waitingForTrigger) ∧
    (t.period ≠ s.period → (∃ period, i = .setPeriod period) ∨ i = .reset) ∧
    t.params = s.params ∧ t.inputs = s.inputs ∧ t.lineVal = s.lineVal ∧ t.epoch = s.epoch

/-- The complete transition relation of `state` (R122). -/
def Obligations.TransitionRelation : Prop :=
  (∀ (s t : State) (i : Instr), exec i s = .next t → t.state =
    match i with
    | .start => .waitingForTrigger
    | .reset => .done
    | .tick =>
      match s.state with
      | .done => .done
      | .waitingForTrigger =>
        if s.first = false ∧ s.expectedPrev = (s.enabled &&& s.slot 1) ∧ s.expectedCur = (s.enabled &&& s.pack) then
          .tracing
        else .waitingForTrigger
      | .tracing => if s.cursor + 1 = s.params.capacity then .done else .tracing
    | .addTrace _ | .addTrig _ _ | .setPeriod _ | .isActive | .isDone | .rdSample _ | .rdPeriod | .rdCount => s.state) ∧
  (∀ (s : State) (w : CmdWord), (∀ r ∈ opcodeTable, r.selects w = false) →
    ∃ t, execWord w s = .next t ∧ t.state = s.state) ∧
  (∀ s : State, s.nextCycle.rst = true → ∃ t, step s = .next t ∧ t.state = .done)

/-- A failed operation changes no state element and answers data 0 (R150); the protocol mark is beside the elements. -/
def Obligations.FailureChangesNothing : Prop :=
  ∀ (s t : State) (i : Instr) (r : Response), i.isCommand = true → exec i s = .next t → t.rsp = some r → r.ok = false →
    r.data = 0 ∧ t = { s with violated := t.violated, rsp := t.rsp }

/-- Every cause of failure (R151): each command answers, and fails exactly on its own causes; an illegal word fails; a tick,
in a state of the invariant, always completes and yields no response. -/
def Obligations.FailuresAreExactlyTheCauses : Prop :=
  (∀ (s : State) (i : Instr), i.isCommand = true → ∃ t r, exec i s = .next t ∧ t.rsp = some r ∧
    (r.ok = false ↔
      (∃ pin, i = .addTrace pin ∧
        (pin.toNat < s.params.pinMin ∨ s.params.pinMax < pin.toNat ∨ s.count.val = 8)) ∨
      (∃ pin edge, i = .addTrig pin edge ∧
        ((∀ k : Fin 8, k.val < s.count.val → s.trace[k] ≠ pin) ∨ ∃ b, edge = .unrecognised b)) ∨
      (∃ idx, i = .rdSample idx ∧ s.params.capacity ≤ idx.toNat))) ∧
  (∀ (s : State) (w : CmdWord), (∀ r ∈ opcodeTable, r.selects w = false) →
    ∃ t, execWord w s = .next t ∧ t.rsp = some { ok := false, data := 0 }) ∧
  (∀ s : State, s.Inv → ∃ t, exec .tick s = .next t ∧ t.rsp = s.rsp)

/-- The model's only stop (its own choice, log 13): an operation never refuses, and faults only as a tick whose slot lies
outside the store, which happens exactly in the states named here. -/
def Obligations.OnlyTickOutsideStoreFaults : Prop :=
  ∀ (s : State) (i : Instr),
    (∀ r, exec i s ≠ .refused r) ∧
    ((∃ e, exec i s = .fault e) ↔ i = .tick ∧
      (s.state = .waitingForTrigger ∧ s.params.capacity ≤ 1 ∨ s.state = .tracing ∧ s.params.capacity ≤ s.cursor))

/-- The protocol mark (R192): set by `ADDTRACE` or `ADDTRIG` outside `DONE`, cleared by hardware reset alone, read by no
operation. That a failing call sets it too is the model's reading (log 9, DEDUCED); that the state looked at is the one
before a tick of the same cycle is the order of log 16 (PRESUMED). -/
def Obligations.ProtocolMark : Prop :=
  (∀ s t : State, step s = .next t →
    (t.violated = true ↔ s.nextCycle.rst = false ∧
      (s.violated = true ∨ s.state ≠ .done ∧
        ((∃ pin, s.nextCycle.command = some (.addTrace pin)) ∨
          ∃ pin edge, s.nextCycle.command = some (.addTrig pin edge))))) ∧
  (∀ (s t : State) (v : Bool) (i : Instr), exec i s = .next t →
    ∃ w, exec i { s with violated := v } = .next { t with violated := w })

/-- `RESET` and hardware reset (70_reset_and_hazards.md section 1) leave the same values but in the store, the entries, the
mark and the response; `RESET` keeps the first three. -/
def Obligations.ResetAgainstHardwareReset : Prop :=
  ∀ (s t u : State), exec .reset s.latch = .next t → s.nextCycle.rst = true → step s = .next u →
    u.state = t.state ∧ u.period = t.period ∧ u.count = t.count ∧ u.cursor = t.cursor ∧ u.enabled = t.enabled ∧
    u.expectedPrev = t.expectedPrev ∧ u.expectedCur = t.expectedCur ∧
    (∀ j, t.slot j = s.slot j) ∧ t.trace = s.trace ∧ t.first = s.first ∧
    t.rsp = some { ok := true, data := 0 } ∧ u.rsp = none

/-- The parameters are constants of one engine instance (R20). -/
def Obligations.StepKeepsParameters : Prop :=
  ∀ s t : State, step s = .next t → t.params = s.params

/-! ### Invariants -/

/-- The invariant of 10_state.md section 9, with the zeros of a capture's unwritten slots (42_reporting.md section 4), is kept
by every step, under any schedule. -/
def Obligations.StepKeepsInvariant : Prop :=
  ∀ s t : State, s.Inv → step s = .next t → t.Inv

/-- The reset state has the invariant, and no position is enabled in it. -/
def Obligations.ResetStateHasInvariant : Prop :=
  State.reset.Inv ∧ State.reset.FirstPositionsEnabled ∧ State.reset.AfterHardwareReset

/-- From a state with the invariant every step completes: no fault and no refusal on any run. -/
def Obligations.InvariantStepCompletes : Prop :=
  ∀ s : State, s.Inv → ∃ t, step s = .next t

/-- Only the lowest position of a line is ever enabled for triggering (40_configuration.md section 2). -/
def Obligations.StepKeepsFirstPositionsEnabled : Prop :=
  ∀ s t : State, s.Inv → s.FirstPositionsEnabled → step s = .next t → t.FirstPositionsEnabled

/-- The bits of the written bytes at and above `count` stay 0 as long as no `RESET` command runs (10_state.md section 9,
last paragraph). -/
def Obligations.StepKeepsSamplesWithinCount : Prop :=
  ∀ s t : State, s.Inv → s.SamplesWithinCount → s.nextCycle.command ≠ some .reset → step s = .next t → t.SamplesWithinCount

/-- Every state a run reaches from hardware reset, with any parameters in range, has the invariants. -/
def Obligations.ReachableStatesHaveInvariants : Prop :=
  ∀ s : State, Reachable s → s.Inv ∧ s.FirstPositionsEnabled

/-- The cursor never needs more than `CURW` bits, the least width that holds `N` (R8, R33). -/
def Obligations.CursorFitsWidth : Prop :=
  ∀ s : State, s.Inv → s.cursor ≤ s.params.capacity ∧ s.cursor < 2 ^ cursorWidth s.params ∧
    ∀ w, s.params.capacity < 2 ^ w ↔ cursorWidth s.params ≤ w
end

