-- ==== Sys2Proof/Laws/Decode.lean ====
section
/-! SUPPORT. The fields of a word that is written as fields side by side, and a word as its opcode and operand part. -/

namespace Sys2Proof

/-- The low part of two fields side by side. -/
theorem extract_append_low {n m : Nat} (hi : BitVec n) (lo : BitVec m) (start len : Nat) (h : start + len ≤ m) :
    (hi ++ lo).extractLsb' start len = lo.extractLsb' start len := by
  apply BitVec.eq_of_getLsbD_eq
  intro i hi
  rw [BitVec.getLsbD_extractLsb', BitVec.getLsbD_extractLsb', BitVec.getLsbD_append, if_pos (by omega)]

/-- The high part of two fields side by side. -/
theorem extract_append_high {n m : Nat} (hi : BitVec n) (lo : BitVec m) (start len : Nat) :
    (hi ++ lo).extractLsb' (m + start) len = hi.extractLsb' start len := by
  apply BitVec.eq_of_getLsbD_eq
  intro i _
  rw [BitVec.getLsbD_extractLsb', BitVec.getLsbD_extractLsb', BitVec.getLsbD_append, if_neg (by omega)]
  congr 2
  omega

/-- A field taken whole is itself. -/
theorem extract_all {n : Nat} (x : BitVec n) : x.extractLsb' 0 n = x := by
  apply BitVec.eq_of_getLsbD_eq
  intro i hi
  simp [hi]

theorem opField_cmdWord (op : BitVec 4) (operands : BitVec 32) : opField (cmdWord op operands) = op :=
  (extract_append_high op operands 0 4).trans (extract_all op)

/-- A field of the operand part. -/
theorem extract_cmdWord (op : BitVec 4) (operands : BitVec 32) (start len : Nat) (h : start + len ≤ 32) :
    (cmdWord op operands).extractLsb' start len = operands.extractLsb' start len :=
  extract_append_low op operands start len h

/-- A word is its opcode and its operand part. -/
theorem cmdWord_of_fields (w : CmdWord) : cmdWord (opField w) (periodField w) = w := by
  apply BitVec.eq_of_getLsbD_eq
  intro i hi
  rw [cmdWord, BitVec.getLsbD_append]
  split_ifs with h
  · simp [periodField, h]
  · rw [opField, BitVec.getLsbD_extractLsb']
    have h4 : i - 32 < 4 := by omega
    have hi' : 32 + (i - 32) = i := by omega
    simp [h4, hi']

/-- A command word never stands for a tick (R75). -/
theorem decode_isCommand {w : CmdWord} {i : Instr} (h : decode w = .ok i) : i.isCommand = true := by
  unfold decode decodeZ whenReservedZero at h
  split at h <;> (try split_ifs at h) <;> cases h <;> rfl

end Sys2Proof
end

