-- ==== Sys2Proof/Laws/Memory.lean ====
section
/-! SUPPORT. The laws of the sample store: every operation keeps the canonical form, a read after a write gives the value
written, and a write leaves every other index alone. -/

namespace Sys2Proof.Machine

/-! ### The canonical form -/

theorem Memory.wf_tail {c : Host.Cell} {m : Memory} (h : Memory.wf (c :: m) = true) : Memory.wf m = true := by
  cases m with
  | nil => rfl
  | cons d m => simp only [Memory.wf, Bool.and_eq_true] at h; exact h.2

/-- A longer memory is canonical when its tail is and its head lies below the tail's. -/
theorem Memory.wf_cons {c : Host.Cell} {m : Memory} (hm : Memory.wf m = true)
    (hc : ∀ d, m.head? = some d → c.1 < d.1) : Memory.wf (c :: m) = true := by
  cases m with
  | nil => rfl
  | cons d m => simp only [Memory.wf, Bool.and_eq_true, decide_eq_true_eq]; exact ⟨hc d rfl, hm⟩

theorem Memory.head_lt_of_wf {c d : Host.Cell} {m : Memory} (h : Memory.wf (c :: m) = true)
    (hd : m.head? = some d) : c.1 < d.1 := by
  cases m with
  | nil => simp at hd
  | cons e m =>
    simp only [Memory.wf, Bool.and_eq_true, decide_eq_true_eq] at h
    simp only [List.head?_cons, Option.some.injEq] at hd
    exact hd ▸ h.1

/-- The lowest index of a memory after a write is the index written or the old lowest index. -/
theorem Memory.head_write (m : Memory) (a : Nat) (v : Byte) (d : Host.Cell)
    (hd : (Memory.write m a v).head? = some d) : d.1 = a ∨ ∃ e, m.head? = some e ∧ d.1 = e.1 := by
  cases m with
  | nil => simp only [Memory.write, List.head?_cons, Option.some.injEq] at hd; exact .inl (hd ▸ rfl)
  | cons c m =>
    simp only [Memory.write] at hd
    split_ifs at hd with h1 h2 <;> simp only [List.head?_cons, Option.some.injEq] at hd
    · exact .inl (hd ▸ rfl)
    · exact .inl (hd ▸ rfl)
    · exact .inr ⟨c, rfl, hd ▸ rfl⟩

theorem Memory.write_wf (m : Memory) (a : Nat) (v : Byte) (h : Memory.wf m = true) :
    Memory.wf (Memory.write m a v) = true := by
  induction m with
  | nil => rfl
  | cons c m ih =>
    simp only [Memory.write]
    split_ifs with h1 h2
    · exact Memory.wf_cons h fun d hd => by simp at hd; subst hd; exact h1
    · exact Memory.wf_cons (Memory.wf_tail h) fun d hd => lt_of_eq_of_lt h2 (Memory.head_lt_of_wf h hd)
    · refine Memory.wf_cons (ih (Memory.wf_tail h)) fun d hd => ?_
      rcases Memory.head_write m a v d hd with e | ⟨e, he, hde⟩
      · show c.1 < d.1
        omega
      · exact hde ▸ Memory.head_lt_of_wf h he

theorem Memory.wf_map_range' (n : Nat) : ∀ start, Memory.wf ((List.range' start n).map fun j => (j, (0 : Byte))) = true := by
  induction n with
  | zero => intro start; rfl
  | succ n ih =>
    intro start
    refine Memory.wf_cons (ih (start + 1)) fun d hd => ?_
    cases n with
    | zero => simp at hd
    | succ n => simp [List.range'_succ] at hd; subst hd; simp

theorem Memory.zeroed_wf (n : Nat) : Memory.wf (Memory.zeroed n) = true := by
  unfold Memory.zeroed
  rw [List.range_eq_range']
  exact Memory.wf_map_range' n 0

/-- The reset state's store is canonical. -/
theorem State.reset_store_wf : Memory.wf State.reset.store = true := rfl

/-! ### Reading back -/

@[simp] theorem Memory.byteAt?_nil (a : Nat) : Memory.byteAt? [] a = none := rfl

theorem Memory.byteAt?_write_same (m : Memory) (a : Nat) (v : Byte) : Memory.byteAt? (Memory.write m a v) a = some v := by
  induction m with
  | nil => simp [Memory.write, Memory.byteAt?]
  | cons c m ih =>
    simp only [Memory.write]
    split_ifs with h1 h2 <;> simp [Memory.byteAt?, *]

theorem Memory.byteAt?_write_other (m : Memory) {a b : Nat} (v : Byte) (hab : b ≠ a) :
    Memory.byteAt? (Memory.write m a v) b = Memory.byteAt? m b := by
  induction m with
  | nil => simp [Memory.write, Memory.byteAt?, hab]
  | cons c m ih =>
    simp only [Memory.write]
    split_ifs with h1 h2
    · simp [Memory.byteAt?, hab]
    · subst h2; simp [Memory.byteAt?, hab]
    · simp [Memory.byteAt?, ih]

theorem Memory.byteAt?_write (m : Memory) (a b : Nat) (v : Byte) :
    Memory.byteAt? (Memory.write m a v) b = if b = a then some v else Memory.byteAt? m b := by
  split_ifs with h
  · rw [h, Memory.byteAt?_write_same]
  · exact Memory.byteAt?_write_other m v h

/-- `START` leaves `0x00` in every slot and in no other (R110). -/
theorem Memory.byteAt?_zeroed (n j : Nat) : Memory.byteAt? (Memory.zeroed n) j = if j < n then some 0 else none := by
  have key : ∀ n start, Memory.byteAt? ((List.range' start n).map fun i => (i, (0 : Byte))) j =
      if start ≤ j ∧ j < start + n then some 0 else none := by
    intro n
    induction n with
    | zero => intro start; simp
    | succ n ih =>
      intro start
      rw [List.range'_succ, List.map_cons, Memory.byteAt?, ih]
      split_ifs <;> first | rfl | omega
  have h := key n 0
  unfold Memory.zeroed
  rw [List.range_eq_range', h]
  simp

/-! ### Where the entries lie -/

theorem Memory.write_bounded {m : Memory} {n a : Nat} (v : Byte) (hm : ∀ c ∈ m, c.1 < n) (ha : a < n) :
    ∀ c ∈ Memory.write m a v, c.1 < n := by
  induction m with
  | nil => simp [Memory.write, ha]
  | cons d m ih =>
    have hd : d.1 < n := hm d (by simp)
    have ht : ∀ c ∈ m, c.1 < n := fun c hc => hm c (by simp [hc])
    simp only [Memory.write]
    split_ifs with h1 h2
    · intro c hc
      rcases List.mem_cons.mp hc with rfl | hc
      · exact ha
      · exact hm c hc
    · intro c hc
      rcases List.mem_cons.mp hc with rfl | hc
      · exact ha
      · exact ht c hc
    · intro c hc
      rcases List.mem_cons.mp hc with rfl | hc
      · exact hd
      · exact ih ht c hc

theorem Memory.zeroed_bounded (n : Nat) : ∀ c ∈ Memory.zeroed n, c.1 < n := by
  simp [Memory.zeroed]

/-! ### Slots -/

theorem State.slot_of_byteAt? {s : State} {j : Nat} {v : Byte} (h : Memory.byteAt? s.store j = some v) : s.slot j = v := by
  simp [State.slot, h]

/-- A slot depends on the store and the reset count alone. -/
theorem State.slot_congr {s t : State} (h : t.store = s.store) (he : t.epoch = s.epoch) (j : Nat) : t.slot j = s.slot j := by
  simp only [State.slot, h, he]

theorem State.slot_arm (s : State) {j : Nat} (h : j < s.params.capacity) : s.arm.slot j = 0 :=
  State.slot_of_byteAt? (by simp [State.arm, Memory.byteAt?_zeroed, h])

end Sys2Proof.Machine
end

