-- ==== Sys2Proof/Laws/Operands.lean ====
section
/-! SUPPORT. What the operand functions answer, bit by bit and case by case. -/

namespace Sys2Proof.Machine

/-- Assigning a bit changes that bit and no other (R126). -/
theorem getLsbD_assignBit (v : Byte) (i : Nat) (b : Bool) (j : Nat) (hj : j < 8) :
    (assignBit v i b).getLsbD j = if j = i then b else v.getLsbD j := by
  have hbit : (1#8 <<< i).getLsbD j = decide (j = i) := by
    rw [BitVec.getLsbD_shiftLeft, BitVec.getLsbD_one]
    by_cases h : j = i
    · subst h; simp [hj]
    · rcases Nat.lt_or_gt_of_ne h with hlt | hgt
      · simp [h, hlt]
      · have hne : j - i ≠ 0 := by omega
        simp [h, hne]
  unfold assignBit
  cases b with
  | true =>
    simp only [if_true, BitVec.getLsbD_or, hbit]
    by_cases h : j = i <;> simp [h]
  | false =>
    simp only [Bool.false_eq_true, if_false, BitVec.getLsbD_and, BitVec.getLsbD_not, hbit, hj, decide_true, Bool.true_and]
    by_cases h : j = i <;> simp [h]

/-- `Pack` over the first `n` positions: bit `j` is the answer for position `j`, and 0 from `n` up (R13). -/
theorem getLsbD_packUpTo (lineVal : Byte) (n : Nat) (hn : n ≤ 8) (j : Nat) :
    (packUpTo lineVal n).getLsbD j = (decide (j < n) && lineVal.getLsbD j) := by
  by_cases hj : j < 8
  · induction n with
    | zero => simp [packUpTo]
    | succ n ih =>
      have ih := ih (by omega)
      unfold packUpTo
      split_ifs with hb
      · rw [getLsbD_assignBit _ _ _ _ hj, ih]
        by_cases h : j = n
        · subst h; simp [hb]
        · have : (j < n + 1) = (j < n) := by rw [eq_iff_iff]; omega
          simp [h, this]
      · rw [ih]
        by_cases h : j = n
        · subst h; simp [hb]
        · have : (j < n + 1) = (j < n) := by rw [eq_iff_iff]; omega
          simp [this]
  · simp only [not_lt] at hj
    rw [BitVec.getLsbD_of_ge _ _ hj, BitVec.getLsbD_of_ge _ _ hj, Bool.and_false]

/-- The same with the index notation, which `simp` prefers. -/
theorem getElem_assignBit (v : Byte) (i : Nat) (b : Bool) (j : Nat) (hj : j < 8) :
    (assignBit v i b)[j] = if j = i then b else v[j] := by
  rw [← BitVec.getLsbD_eq_getElem hj, getLsbD_assignBit v i b j hj, BitVec.getLsbD_eq_getElem hj]

theorem State.getLsbD_pack (s : State) (j : Nat) :
    s.pack.getLsbD j = (decide (j < s.count.val) && s.lineVal.getLsbD j) :=
  getLsbD_packUpTo _ _ (by have := s.count.isLt; omega) j

/-- The failures of `ADDTRACE` (R90, R151). -/
theorem State.addTraceFailure_eq_none (s : State) (pin : Pin) : s.addTraceFailure pin = none ↔
    (s.params.pinMin ≤ pin.toNat ∧ pin.toNat ≤ s.params.pinMax) ∧ s.count.val < 8 := by
  unfold State.addTraceFailure
  split_ifs with h1 h2
  · simp only [Bool.or_eq_true, decide_eq_true_eq] at h1; simp; omega
  · simp; omega
  · simp only [Bool.or_eq_true, decide_eq_true_eq, not_or, not_lt] at h1; simp; omega

theorem State.rdSampleFailure_eq_none (s : State) (idx : BitVec 16) :
    s.rdSampleFailure idx = none ↔ idx.toNat < s.params.capacity := by
  unfold State.rdSampleFailure
  split_ifs with h <;> simp <;> omega

/-- The position `ADDTRIG` chooses is registered, names the line, and is the lowest such (R93, R96). -/
theorem State.firstPosition_eq_some (s : State) (pin : Pin) (i : Fin 8) : s.firstPosition pin = some i ↔
    i.val < s.count.val ∧ s.trace[i] = pin ∧ ∀ k : Fin 8, k < i → s.trace[k] ≠ pin := by
  have hlast : i.val < s.count.val → ∀ k : Fin 8, k < i → k.val < s.count.val := fun h k hk => by
    have : k.val < i.val := hk
    omega
  have split : s.firstPosition pin = some i ↔ (i.val < s.count.val ∧ s.trace[i] = pin) ∧
      ∀ k : Fin 8, k < i → ¬(k.val < s.count.val ∧ s.trace[k] = pin) := by
    unfold State.firstPosition positions State.registered
    rw [List.find?_eq_some_iff_getElem]
    simp only [Bool.and_eq_true, decide_eq_true_eq, beq_iff_eq]
    constructor
    · rintro ⟨hp, n, hn, he, hl⟩
      refine ⟨hp, fun k hk => ?_⟩
      have hn8 : n < 8 := by simpa using hn
      have hin : i.val = n := by subst he; interval_cases n <;> rfl
      have hk' : k.val < n := hin ▸ hk
      have h0 := hl k.val hk'
      have hel : ([0, 1, 2, 3, 4, 5, 6, 7] : List (Fin 8))[k.val]'(by simp) = k := by fin_cases k <;> rfl
      rw [hel] at h0
      simpa only [Bool.not_eq_eq_eq_not, Bool.not_true, Bool.and_eq_false_iff, decide_eq_false_iff_not, beq_eq_false_iff_ne,
        ne_eq, ← not_and_or] using h0
    · rintro ⟨hp, hl⟩
      refine ⟨hp, i.val, by simp, by fin_cases i <;> rfl, fun j hj => ?_⟩
      have hj8 : j < 8 := lt_trans hj i.isLt
      have hel : ([0, 1, 2, 3, 4, 5, 6, 7] : List (Fin 8))[j]'(by simpa using hj8) = ⟨j, hj8⟩ := by
        interval_cases j <;> rfl
      rw [hel]
      simpa only [Bool.not_eq_eq_eq_not, Bool.not_true, Bool.and_eq_false_iff, decide_eq_false_iff_not, beq_eq_false_iff_ne,
        ne_eq, ← not_and_or] using hl ⟨j, hj8⟩ hj
  rw [split]
  constructor
  · rintro ⟨⟨h1, h2⟩, h3⟩
    exact ⟨h1, h2, fun k hk e => h3 k hk ⟨hlast h1 k hk, e⟩⟩
  · rintro ⟨h1, h2, h3⟩
    exact ⟨⟨h1, h2⟩, fun k hk e => h3 k hk e.2⟩

/-- No registered entry names the line (R93). -/
theorem State.firstPosition_eq_none (s : State) (pin : Pin) : s.firstPosition pin = none ↔
    ∀ k : Fin 8, k.val < s.count.val → s.trace[k] ≠ pin := by
  unfold State.firstPosition State.registered
  rw [List.find?_eq_none]
  have hall : ∀ k : Fin 8, k ∈ positions := by decide
  constructor
  · intro h k hk e
    exact h k (hall k) (by simp [hk, e])
  · intro h k _ hk
    simp only [Bool.and_eq_true, decide_eq_true_eq, beq_iff_eq] at hk
    exact h k hk.1 hk.2

/-- `ADDTRIG` succeeds exactly on a registered line and a recognised edge (R93). -/
theorem State.triggerTarget_eq_ok (s : State) (pin : Pin) (edge : Edge) (i : Fin 8) (p c : Bool) :
    s.triggerTarget pin edge = .ok (i, p, c) ↔ s.firstPosition pin = some i ∧ edgeBits edge = some (p, c) := by
  unfold State.triggerTarget
  cases s.firstPosition pin with
  | none => simp
  | some j =>
    cases edgeBits edge with
    | none => simp
    | some b => cases b; simp

/-- `Trig` bit by bit (R116). -/
theorem trig_iff (en ep ec s0 s1 : Byte) : trig en ep ec s0 s1 = true ↔ ep = (en &&& s0) ∧ ec = (en &&& s1) := by
  simp [trig]

/-- The calls of one `Pack` are the registered positions, each once (R13). -/
theorem State.mem_oracleCalls (s : State) (r : LineRead) : r ∈ s.oracleCalls ↔
    r.position.val < s.count.val ∧ r.pin = s.trace[r.position] ∧ r.level = s.lineVal.getLsbD r.position := by
  have hall : ∀ k : Fin 8, k ∈ positions := by decide
  cases r with
  | mk position pin level =>
    simp only [State.oracleCalls, List.mem_map, List.mem_filter, State.registered, decide_eq_true_eq, LineRead.mk.injEq]
    constructor
    · rintro ⟨k, ⟨_, hk⟩, rfl, rfl, rfl⟩
      exact ⟨hk, rfl, rfl⟩
    · rintro ⟨h1, h2, h3⟩
      exact ⟨position, ⟨hall _, h1⟩, rfl, h2.symm, h3.symm⟩

end Sys2Proof.Machine
end

