-- ==== Sys2Proof/Laws/PerInstr.lean ====
section
/-! SUPPORT. Statements for every instruction, proved constructor by constructor. `EncodeSelectsRow`: the encoded word is
selected by the instruction's own row of the opcode table (R75), and the tick goes on the strobe (R72). -/

namespace Sys2Proof.Laws.EncodeSelectsRow
open Sys2Proof

/-- The encoded word selects the row of the instruction's mnemonic. -/
def Statement (i : Instr) : Prop :=
  match encode i with
  | .cmd w => ∃ r ∈ opcodeTable, r.mnemonic = i.mnemonic ∧ r.selects w = true
  | .strobe b => i.mnemonic = "TICK" ∧ b = 1

/-- A word whose operand part has no reserved bit set selects the row that fixes its opcode and those bits. -/
theorem cmdWord_selects (name : String) (op : BitVec 4) (operands reserved : BitVec 32) (h : operands &&& reserved = 0) :
    OpcodeRow.selects { mnemonic := name, matchBits := cmdWord op 0, maskBits := cmdWord 0xF reserved }
      (cmdWord op operands) = true := by
  have hop : ∀ o : BitVec 4, o &&& 0xF = o := by decide
  simp only [OpcodeRow.selects, cmdWord, beq_iff_eq]
  rw [BitVec.and_append, h, hop]

/-- Reserved bits above an operand are encoded as 0. -/
theorem high_zero {n m : Nat} (x : BitVec m) : (0#n ++ x) &&& (BitVec.allOnes n ++ 0#m) = 0#n ++ 0#m := by
  rw [BitVec.and_append]; simp

theorem addTrace (pin : Pin) : Statement (.addTrace pin) :=
  ⟨_, .head _, rfl, cmdWord_selects _ 0x1 _ 0xFFFFFF00 (high_zero pin)⟩

theorem addTrig (pin : Pin) (edge : Edge) : Statement (.addTrig pin edge) := by
  refine ⟨_, .tail _ (.head _), rfl, cmdWord_selects _ 0x2 _ 0xFFFFF800 ?_⟩
  show (0#21 ++ edge.code ++ pin) &&& (BitVec.allOnes 21 ++ 0#3 ++ 0#8) = 0
  rw [BitVec.and_append, BitVec.and_append]
  simp

theorem setPeriod (period : BitVec 32) : Statement (.setPeriod period) :=
  ⟨_, .tail _ (.tail _ (.head _)), rfl, cmdWord_selects _ 0x3 period 0 (by simp)⟩

theorem rdSample (idx : BitVec 16) : Statement (.rdSample idx) :=
  ⟨opcodeTable[7], List.getElem_mem _, rfl,
    cmdWord_selects _ 0x8 _ 0xFFFF0000 (high_zero idx)⟩

theorem reset : Statement .reset :=
  ⟨opcodeTable[3], List.getElem_mem _, rfl, by decide⟩

theorem start : Statement .start :=
  ⟨opcodeTable[4], List.getElem_mem _, rfl, by decide⟩

theorem isActive : Statement .isActive :=
  ⟨opcodeTable[5], List.getElem_mem _, rfl, by decide⟩

theorem isDone : Statement .isDone :=
  ⟨opcodeTable[6], List.getElem_mem _, rfl, by decide⟩

theorem rdPeriod : Statement .rdPeriod :=
  ⟨opcodeTable[8], List.getElem_mem _, rfl, by decide⟩

theorem rdCount : Statement .rdCount :=
  ⟨opcodeTable[9], List.getElem_mem _, rfl, by decide⟩

theorem tick : Statement .tick := ⟨rfl, rfl⟩

end Sys2Proof.Laws.EncodeSelectsRow
end

