-- ==== Sys2Proof/Laws/State.lean ====
section
/-! SUPPORT. For each named update of the state, what each field is afterwards; no later proof unfolds a record update. -/

namespace Sys2Proof.Machine
variable (s : State)

/-! ### `State.putSlot` -/

@[simp] theorem State.putSlot_trace (i : Nat) (v : Byte) : (s.putSlot i v).trace = s.trace := rfl
@[simp] theorem State.putSlot_count (i : Nat) (v : Byte) : (s.putSlot i v).count = s.count := rfl
@[simp] theorem State.putSlot_enabled (i : Nat) (v : Byte) : (s.putSlot i v).enabled = s.enabled := rfl
@[simp] theorem State.putSlot_expectedPrev (i : Nat) (v : Byte) : (s.putSlot i v).expectedPrev = s.expectedPrev := rfl
@[simp] theorem State.putSlot_expectedCur (i : Nat) (v : Byte) : (s.putSlot i v).expectedCur = s.expectedCur := rfl
@[simp] theorem State.putSlot_store (i : Nat) (v : Byte) : (s.putSlot i v).store = Memory.write s.store i v := rfl
@[simp] theorem State.putSlot_cursor (i : Nat) (v : Byte) : (s.putSlot i v).cursor = s.cursor := rfl
@[simp] theorem State.putSlot_state (i : Nat) (v : Byte) : (s.putSlot i v).state = s.state := rfl
@[simp] theorem State.putSlot_first (i : Nat) (v : Byte) : (s.putSlot i v).first = s.first := rfl
@[simp] theorem State.putSlot_period (i : Nat) (v : Byte) : (s.putSlot i v).period = s.period := rfl
@[simp] theorem State.putSlot_lineVal (i : Nat) (v : Byte) : (s.putSlot i v).lineVal = s.lineVal := rfl
@[simp] theorem State.putSlot_rsp (i : Nat) (v : Byte) : (s.putSlot i v).rsp = s.rsp := rfl
@[simp] theorem State.putSlot_lineReads (i : Nat) (v : Byte) : (s.putSlot i v).lineReads = s.lineReads := rfl
@[simp] theorem State.putSlot_inputs (i : Nat) (v : Byte) : (s.putSlot i v).inputs = s.inputs := rfl
@[simp] theorem State.putSlot_violated (i : Nat) (v : Byte) : (s.putSlot i v).violated = s.violated := rfl
@[simp] theorem State.putSlot_params (i : Nat) (v : Byte) : (s.putSlot i v).params = s.params := rfl
@[simp] theorem State.putSlot_epoch (i : Nat) (v : Byte) : (s.putSlot i v).epoch = s.epoch := rfl

/-! ### `State.presentLines` -/

@[simp] theorem State.presentLines_trace (l : Byte) : (s.presentLines l).trace = s.trace := rfl
@[simp] theorem State.presentLines_count (l : Byte) : (s.presentLines l).count = s.count := rfl
@[simp] theorem State.presentLines_enabled (l : Byte) : (s.presentLines l).enabled = s.enabled := rfl
@[simp] theorem State.presentLines_expectedPrev (l : Byte) : (s.presentLines l).expectedPrev = s.expectedPrev := rfl
@[simp] theorem State.presentLines_expectedCur (l : Byte) : (s.presentLines l).expectedCur = s.expectedCur := rfl
@[simp] theorem State.presentLines_store (l : Byte) : (s.presentLines l).store = s.store := rfl
@[simp] theorem State.presentLines_cursor (l : Byte) : (s.presentLines l).cursor = s.cursor := rfl
@[simp] theorem State.presentLines_state (l : Byte) : (s.presentLines l).state = s.state := rfl
@[simp] theorem State.presentLines_first (l : Byte) : (s.presentLines l).first = s.first := rfl
@[simp] theorem State.presentLines_period (l : Byte) : (s.presentLines l).period = s.period := rfl
@[simp] theorem State.presentLines_lineVal (l : Byte) : (s.presentLines l).lineVal = l := rfl
@[simp] theorem State.presentLines_rsp (l : Byte) : (s.presentLines l).rsp = s.rsp := rfl
@[simp] theorem State.presentLines_lineReads (l : Byte) : (s.presentLines l).lineReads = s.lineReads := rfl
@[simp] theorem State.presentLines_inputs (l : Byte) : (s.presentLines l).inputs = s.inputs := rfl
@[simp] theorem State.presentLines_violated (l : Byte) : (s.presentLines l).violated = s.violated := rfl
@[simp] theorem State.presentLines_params (l : Byte) : (s.presentLines l).params = s.params := rfl
@[simp] theorem State.presentLines_epoch (l : Byte) : (s.presentLines l).epoch = s.epoch := rfl
@[simp] theorem State.presentLines_slot (l : Byte) (j : Nat) : (s.presentLines l).slot j = s.slot j := rfl

@[simp] theorem State.presentLines_pack (l : Byte) : (s.presentLines l).pack = packUpTo l s.count.val := rfl

/-! ### `State.reply` -/

@[simp] theorem State.reply_trace (r : Response) : (s.reply r).trace = s.trace := rfl
@[simp] theorem State.reply_count (r : Response) : (s.reply r).count = s.count := rfl
@[simp] theorem State.reply_enabled (r : Response) : (s.reply r).enabled = s.enabled := rfl
@[simp] theorem State.reply_expectedPrev (r : Response) : (s.reply r).expectedPrev = s.expectedPrev := rfl
@[simp] theorem State.reply_expectedCur (r : Response) : (s.reply r).expectedCur = s.expectedCur := rfl
@[simp] theorem State.reply_store (r : Response) : (s.reply r).store = s.store := rfl
@[simp] theorem State.reply_cursor (r : Response) : (s.reply r).cursor = s.cursor := rfl
@[simp] theorem State.reply_state (r : Response) : (s.reply r).state = s.state := rfl
@[simp] theorem State.reply_first (r : Response) : (s.reply r).first = s.first := rfl
@[simp] theorem State.reply_period (r : Response) : (s.reply r).period = s.period := rfl
@[simp] theorem State.reply_lineVal (r : Response) : (s.reply r).lineVal = s.lineVal := rfl
@[simp] theorem State.reply_rsp (r : Response) : (s.reply r).rsp = some r := rfl
@[simp] theorem State.reply_lineReads (r : Response) : (s.reply r).lineReads = s.lineReads := rfl
@[simp] theorem State.reply_inputs (r : Response) : (s.reply r).inputs = s.inputs := rfl
@[simp] theorem State.reply_violated (r : Response) : (s.reply r).violated = s.violated := rfl
@[simp] theorem State.reply_params (r : Response) : (s.reply r).params = s.params := rfl
@[simp] theorem State.reply_epoch (r : Response) : (s.reply r).epoch = s.epoch := rfl
@[simp] theorem State.reply_slot (r : Response) (j : Nat) : (s.reply r).slot j = s.slot j := rfl

/-! ### `State.succeeded` -/

@[simp] theorem State.succeeded_trace (d : BitVec 32) : (s.succeeded d).trace = s.trace := rfl
@[simp] theorem State.succeeded_count (d : BitVec 32) : (s.succeeded d).count = s.count := rfl
@[simp] theorem State.succeeded_enabled (d : BitVec 32) : (s.succeeded d).enabled = s.enabled := rfl
@[simp] theorem State.succeeded_expectedPrev (d : BitVec 32) : (s.succeeded d).expectedPrev = s.expectedPrev := rfl
@[simp] theorem State.succeeded_expectedCur (d : BitVec 32) : (s.succeeded d).expectedCur = s.expectedCur := rfl
@[simp] theorem State.succeeded_store (d : BitVec 32) : (s.succeeded d).store = s.store := rfl
@[simp] theorem State.succeeded_cursor (d : BitVec 32) : (s.succeeded d).cursor = s.cursor := rfl
@[simp] theorem State.succeeded_state (d : BitVec 32) : (s.succeeded d).state = s.state := rfl
@[simp] theorem State.succeeded_first (d : BitVec 32) : (s.succeeded d).first = s.first := rfl
@[simp] theorem State.succeeded_period (d : BitVec 32) : (s.succeeded d).period = s.period := rfl
@[simp] theorem State.succeeded_lineVal (d : BitVec 32) : (s.succeeded d).lineVal = s.lineVal := rfl
@[simp] theorem State.succeeded_rsp (d : BitVec 32) : (s.succeeded d).rsp = some (.okData d) := rfl
@[simp] theorem State.succeeded_lineReads (d : BitVec 32) : (s.succeeded d).lineReads = s.lineReads := rfl
@[simp] theorem State.succeeded_inputs (d : BitVec 32) : (s.succeeded d).inputs = s.inputs := rfl
@[simp] theorem State.succeeded_violated (d : BitVec 32) : (s.succeeded d).violated = s.violated := rfl
@[simp] theorem State.succeeded_params (d : BitVec 32) : (s.succeeded d).params = s.params := rfl
@[simp] theorem State.succeeded_epoch (d : BitVec 32) : (s.succeeded d).epoch = s.epoch := rfl
@[simp] theorem State.succeeded_slot (d : BitVec 32) (j : Nat) : (s.succeeded d).slot j = s.slot j := rfl

/-! ### `State.failed` -/

@[simp] theorem State.failed_trace : (s.failed).trace = s.trace := rfl
@[simp] theorem State.failed_count : (s.failed).count = s.count := rfl
@[simp] theorem State.failed_enabled : (s.failed).enabled = s.enabled := rfl
@[simp] theorem State.failed_expectedPrev : (s.failed).expectedPrev = s.expectedPrev := rfl
@[simp] theorem State.failed_expectedCur : (s.failed).expectedCur = s.expectedCur := rfl
@[simp] theorem State.failed_store : (s.failed).store = s.store := rfl
@[simp] theorem State.failed_cursor : (s.failed).cursor = s.cursor := rfl
@[simp] theorem State.failed_state : (s.failed).state = s.state := rfl
@[simp] theorem State.failed_first : (s.failed).first = s.first := rfl
@[simp] theorem State.failed_period : (s.failed).period = s.period := rfl
@[simp] theorem State.failed_lineVal : (s.failed).lineVal = s.lineVal := rfl
@[simp] theorem State.failed_rsp : (s.failed).rsp = some .fail := rfl
@[simp] theorem State.failed_lineReads : (s.failed).lineReads = s.lineReads := rfl
@[simp] theorem State.failed_inputs : (s.failed).inputs = s.inputs := rfl
@[simp] theorem State.failed_violated : (s.failed).violated = s.violated := rfl
@[simp] theorem State.failed_params : (s.failed).params = s.params := rfl
@[simp] theorem State.failed_epoch : (s.failed).epoch = s.epoch := rfl
@[simp] theorem State.failed_slot (j : Nat) : (s.failed).slot j = s.slot j := rfl

/-! ### `State.markConfiguration` -/

@[simp] theorem State.markConfiguration_trace : (s.markConfiguration).trace = s.trace := rfl
@[simp] theorem State.markConfiguration_count : (s.markConfiguration).count = s.count := rfl
@[simp] theorem State.markConfiguration_enabled : (s.markConfiguration).enabled = s.enabled := rfl
@[simp] theorem State.markConfiguration_expectedPrev : (s.markConfiguration).expectedPrev = s.expectedPrev := rfl
@[simp] theorem State.markConfiguration_expectedCur : (s.markConfiguration).expectedCur = s.expectedCur := rfl
@[simp] theorem State.markConfiguration_store : (s.markConfiguration).store = s.store := rfl
@[simp] theorem State.markConfiguration_cursor : (s.markConfiguration).cursor = s.cursor := rfl
@[simp] theorem State.markConfiguration_state : (s.markConfiguration).state = s.state := rfl
@[simp] theorem State.markConfiguration_first : (s.markConfiguration).first = s.first := rfl
@[simp] theorem State.markConfiguration_period : (s.markConfiguration).period = s.period := rfl
@[simp] theorem State.markConfiguration_lineVal : (s.markConfiguration).lineVal = s.lineVal := rfl
@[simp] theorem State.markConfiguration_rsp : (s.markConfiguration).rsp = s.rsp := rfl
@[simp] theorem State.markConfiguration_lineReads : (s.markConfiguration).lineReads = s.lineReads := rfl
@[simp] theorem State.markConfiguration_inputs : (s.markConfiguration).inputs = s.inputs := rfl
@[simp] theorem State.markConfiguration_violated : (s.markConfiguration).violated = (s.violated || s.state != .done) := rfl
@[simp] theorem State.markConfiguration_params : (s.markConfiguration).params = s.params := rfl
@[simp] theorem State.markConfiguration_epoch : (s.markConfiguration).epoch = s.epoch := rfl
@[simp] theorem State.markConfiguration_slot (j : Nat) : (s.markConfiguration).slot j = s.slot j := rfl

/-! ### `State.setTrigger` -/

@[simp] theorem State.setTrigger_trace (i : Fin 8) (p c : Bool) : (s.setTrigger i p c).trace = s.trace := rfl
@[simp] theorem State.setTrigger_count (i : Fin 8) (p c : Bool) : (s.setTrigger i p c).count = s.count := rfl
@[simp] theorem State.setTrigger_enabled (i : Fin 8) (p c : Bool) : (s.setTrigger i p c).enabled = assignBit s.enabled i true := rfl
@[simp] theorem State.setTrigger_expectedPrev (i : Fin 8) (p c : Bool) : (s.setTrigger i p c).expectedPrev = assignBit s.expectedPrev i p := rfl
@[simp] theorem State.setTrigger_expectedCur (i : Fin 8) (p c : Bool) : (s.setTrigger i p c).expectedCur = assignBit s.expectedCur i c := rfl
@[simp] theorem State.setTrigger_store (i : Fin 8) (p c : Bool) : (s.setTrigger i p c).store = s.store := rfl
@[simp] theorem State.setTrigger_cursor (i : Fin 8) (p c : Bool) : (s.setTrigger i p c).cursor = s.cursor := rfl
@[simp] theorem State.setTrigger_state (i : Fin 8) (p c : Bool) : (s.setTrigger i p c).state = s.state := rfl
@[simp] theorem State.setTrigger_first (i : Fin 8) (p c : Bool) : (s.setTrigger i p c).first = s.first := rfl
@[simp] theorem State.setTrigger_period (i : Fin 8) (p c : Bool) : (s.setTrigger i p c).period = s.period := rfl
@[simp] theorem State.setTrigger_lineVal (i : Fin 8) (p c : Bool) : (s.setTrigger i p c).lineVal = s.lineVal := rfl
@[simp] theorem State.setTrigger_rsp (i : Fin 8) (p c : Bool) : (s.setTrigger i p c).rsp = s.rsp := rfl
@[simp] theorem State.setTrigger_lineReads (i : Fin 8) (p c : Bool) : (s.setTrigger i p c).lineReads = s.lineReads := rfl
@[simp] theorem State.setTrigger_inputs (i : Fin 8) (p c : Bool) : (s.setTrigger i p c).inputs = s.inputs := rfl
@[simp] theorem State.setTrigger_violated (i : Fin 8) (p c : Bool) : (s.setTrigger i p c).violated = s.violated := rfl
@[simp] theorem State.setTrigger_params (i : Fin 8) (p c : Bool) : (s.setTrigger i p c).params = s.params := rfl
@[simp] theorem State.setTrigger_epoch (i : Fin 8) (p c : Bool) : (s.setTrigger i p c).epoch = s.epoch := rfl
@[simp] theorem State.setTrigger_slot (i : Fin 8) (p c : Bool) (j : Nat) : (s.setTrigger i p c).slot j = s.slot j := rfl

/-! ### `State.clearConfiguration` -/

@[simp] theorem State.clearConfiguration_trace : (s.clearConfiguration).trace = s.trace := rfl
@[simp] theorem State.clearConfiguration_count : (s.clearConfiguration).count = 0 := rfl
@[simp] theorem State.clearConfiguration_enabled : (s.clearConfiguration).enabled = 0 := rfl
@[simp] theorem State.clearConfiguration_expectedPrev : (s.clearConfiguration).expectedPrev = 0 := rfl
@[simp] theorem State.clearConfiguration_expectedCur : (s.clearConfiguration).expectedCur = 0 := rfl
@[simp] theorem State.clearConfiguration_store : (s.clearConfiguration).store = s.store := rfl
@[simp] theorem State.clearConfiguration_cursor : (s.clearConfiguration).cursor = 0 := rfl
@[simp] theorem State.clearConfiguration_state : (s.clearConfiguration).state = .done := rfl
@[simp] theorem State.clearConfiguration_first : (s.clearConfiguration).first = s.first := rfl
@[simp] theorem State.clearConfiguration_period : (s.clearConfiguration).period = 0 := rfl
@[simp] theorem State.clearConfiguration_lineVal : (s.clearConfiguration).lineVal = s.lineVal := rfl
@[simp] theorem State.clearConfiguration_rsp : (s.clearConfiguration).rsp = s.rsp := rfl
@[simp] theorem State.clearConfiguration_lineReads : (s.clearConfiguration).lineReads = s.lineReads := rfl
@[simp] theorem State.clearConfiguration_inputs : (s.clearConfiguration).inputs = s.inputs := rfl
@[simp] theorem State.clearConfiguration_violated : (s.clearConfiguration).violated = s.violated := rfl
@[simp] theorem State.clearConfiguration_params : (s.clearConfiguration).params = s.params := rfl
@[simp] theorem State.clearConfiguration_epoch : (s.clearConfiguration).epoch = s.epoch := rfl
@[simp] theorem State.clearConfiguration_slot (j : Nat) : (s.clearConfiguration).slot j = s.slot j := rfl

/-! ### `State.hardwareReset` -/

@[simp] theorem State.hardwareReset_trace : (s.hardwareReset).trace = Vector.ofFn (Config.traceDraw (s.epoch + 1)) := rfl
@[simp] theorem State.hardwareReset_count : (s.hardwareReset).count = 0 := rfl
@[simp] theorem State.hardwareReset_enabled : (s.hardwareReset).enabled = 0 := rfl
@[simp] theorem State.hardwareReset_expectedPrev : (s.hardwareReset).expectedPrev = 0 := rfl
@[simp] theorem State.hardwareReset_expectedCur : (s.hardwareReset).expectedCur = 0 := rfl
@[simp] theorem State.hardwareReset_store : (s.hardwareReset).store = [] := rfl
@[simp] theorem State.hardwareReset_cursor : (s.hardwareReset).cursor = 0 := rfl
@[simp] theorem State.hardwareReset_state : (s.hardwareReset).state = .done := rfl
@[simp] theorem State.hardwareReset_first : (s.hardwareReset).first = Config.firstDraw (s.epoch + 1) := rfl
@[simp] theorem State.hardwareReset_period : (s.hardwareReset).period = 0 := rfl
@[simp] theorem State.hardwareReset_lineVal : (s.hardwareReset).lineVal = s.lineVal := rfl
@[simp] theorem State.hardwareReset_rsp : (s.hardwareReset).rsp = none := rfl
@[simp] theorem State.hardwareReset_lineReads : (s.hardwareReset).lineReads = [] := rfl
@[simp] theorem State.hardwareReset_inputs : (s.hardwareReset).inputs = s.inputs := rfl
@[simp] theorem State.hardwareReset_violated : (s.hardwareReset).violated = false := rfl
@[simp] theorem State.hardwareReset_params : (s.hardwareReset).params = s.params := rfl
@[simp] theorem State.hardwareReset_epoch : (s.hardwareReset).epoch = s.epoch + 1 := rfl

/-! ### `State.arm` -/

@[simp] theorem State.arm_trace : (s.arm).trace = s.trace := rfl
@[simp] theorem State.arm_count : (s.arm).count = s.count := rfl
@[simp] theorem State.arm_enabled : (s.arm).enabled = s.enabled := rfl
@[simp] theorem State.arm_expectedPrev : (s.arm).expectedPrev = s.expectedPrev := rfl
@[simp] theorem State.arm_expectedCur : (s.arm).expectedCur = s.expectedCur := rfl
@[simp] theorem State.arm_store : (s.arm).store = Memory.zeroed s.params.capacity := rfl
@[simp] theorem State.arm_cursor : (s.arm).cursor = 2 := rfl
@[simp] theorem State.arm_state : (s.arm).state = .waitingForTrigger := rfl
@[simp] theorem State.arm_first : (s.arm).first = true := rfl
@[simp] theorem State.arm_period : (s.arm).period = s.period := rfl
@[simp] theorem State.arm_lineVal : (s.arm).lineVal = s.lineVal := rfl
@[simp] theorem State.arm_rsp : (s.arm).rsp = s.rsp := rfl
@[simp] theorem State.arm_lineReads : (s.arm).lineReads = s.lineReads := rfl
@[simp] theorem State.arm_inputs : (s.arm).inputs = s.inputs := rfl
@[simp] theorem State.arm_violated : (s.arm).violated = s.violated := rfl
@[simp] theorem State.arm_params : (s.arm).params = s.params := rfl
@[simp] theorem State.arm_epoch : (s.arm).epoch = s.epoch := rfl

/-! ### `State.advanceCursor` -/

@[simp] theorem State.advanceCursor_trace : (s.advanceCursor).trace = s.trace := rfl
@[simp] theorem State.advanceCursor_count : (s.advanceCursor).count = s.count := rfl
@[simp] theorem State.advanceCursor_enabled : (s.advanceCursor).enabled = s.enabled := rfl
@[simp] theorem State.advanceCursor_expectedPrev : (s.advanceCursor).expectedPrev = s.expectedPrev := rfl
@[simp] theorem State.advanceCursor_expectedCur : (s.advanceCursor).expectedCur = s.expectedCur := rfl
@[simp] theorem State.advanceCursor_store : (s.advanceCursor).store = s.store := rfl
@[simp] theorem State.advanceCursor_cursor : (s.advanceCursor).cursor = s.cursor + 1 := rfl
@[simp] theorem State.advanceCursor_state : (s.advanceCursor).state = (if s.cursor + 1 = s.params.capacity then .done else s.state) := rfl
@[simp] theorem State.advanceCursor_first : (s.advanceCursor).first = s.first := rfl
@[simp] theorem State.advanceCursor_period : (s.advanceCursor).period = s.period := rfl
@[simp] theorem State.advanceCursor_lineVal : (s.advanceCursor).lineVal = s.lineVal := rfl
@[simp] theorem State.advanceCursor_rsp : (s.advanceCursor).rsp = s.rsp := rfl
@[simp] theorem State.advanceCursor_lineReads : (s.advanceCursor).lineReads = s.lineReads := rfl
@[simp] theorem State.advanceCursor_inputs : (s.advanceCursor).inputs = s.inputs := rfl
@[simp] theorem State.advanceCursor_violated : (s.advanceCursor).violated = s.violated := rfl
@[simp] theorem State.advanceCursor_params : (s.advanceCursor).params = s.params := rfl
@[simp] theorem State.advanceCursor_epoch : (s.advanceCursor).epoch = s.epoch := rfl
@[simp] theorem State.advanceCursor_slot (j : Nat) : (s.advanceCursor).slot j = s.slot j := rfl

/-! ### `State.recordReads` -/

@[simp] theorem State.recordReads_trace (l : List LineRead) : (s.recordReads l).trace = s.trace := rfl
@[simp] theorem State.recordReads_count (l : List LineRead) : (s.recordReads l).count = s.count := rfl
@[simp] theorem State.recordReads_enabled (l : List LineRead) : (s.recordReads l).enabled = s.enabled := rfl
@[simp] theorem State.recordReads_expectedPrev (l : List LineRead) : (s.recordReads l).expectedPrev = s.expectedPrev := rfl
@[simp] theorem State.recordReads_expectedCur (l : List LineRead) : (s.recordReads l).expectedCur = s.expectedCur := rfl
@[simp] theorem State.recordReads_store (l : List LineRead) : (s.recordReads l).store = s.store := rfl
@[simp] theorem State.recordReads_cursor (l : List LineRead) : (s.recordReads l).cursor = s.cursor := rfl
@[simp] theorem State.recordReads_state (l : List LineRead) : (s.recordReads l).state = s.state := rfl
@[simp] theorem State.recordReads_first (l : List LineRead) : (s.recordReads l).first = s.first := rfl
@[simp] theorem State.recordReads_period (l : List LineRead) : (s.recordReads l).period = s.period := rfl
@[simp] theorem State.recordReads_lineVal (l : List LineRead) : (s.recordReads l).lineVal = s.lineVal := rfl
@[simp] theorem State.recordReads_rsp (l : List LineRead) : (s.recordReads l).rsp = s.rsp := rfl
@[simp] theorem State.recordReads_lineReads (l : List LineRead) : (s.recordReads l).lineReads = l := rfl
@[simp] theorem State.recordReads_inputs (l : List LineRead) : (s.recordReads l).inputs = s.inputs := rfl
@[simp] theorem State.recordReads_violated (l : List LineRead) : (s.recordReads l).violated = s.violated := rfl
@[simp] theorem State.recordReads_params (l : List LineRead) : (s.recordReads l).params = s.params := rfl
@[simp] theorem State.recordReads_epoch (l : List LineRead) : (s.recordReads l).epoch = s.epoch := rfl
@[simp] theorem State.recordReads_slot (l : List LineRead) (j : Nat) : (s.recordReads l).slot j = s.slot j := rfl

/-! ### `State.beginCycle` -/

@[simp] theorem State.beginCycle_trace (c : Cycle) : (s.beginCycle c).trace = s.trace := rfl
@[simp] theorem State.beginCycle_count (c : Cycle) : (s.beginCycle c).count = s.count := rfl
@[simp] theorem State.beginCycle_enabled (c : Cycle) : (s.beginCycle c).enabled = s.enabled := rfl
@[simp] theorem State.beginCycle_expectedPrev (c : Cycle) : (s.beginCycle c).expectedPrev = s.expectedPrev := rfl
@[simp] theorem State.beginCycle_expectedCur (c : Cycle) : (s.beginCycle c).expectedCur = s.expectedCur := rfl
@[simp] theorem State.beginCycle_store (c : Cycle) : (s.beginCycle c).store = s.store := rfl
@[simp] theorem State.beginCycle_cursor (c : Cycle) : (s.beginCycle c).cursor = s.cursor := rfl
@[simp] theorem State.beginCycle_state (c : Cycle) : (s.beginCycle c).state = s.state := rfl
@[simp] theorem State.beginCycle_first (c : Cycle) : (s.beginCycle c).first = s.first := rfl
@[simp] theorem State.beginCycle_period (c : Cycle) : (s.beginCycle c).period = s.period := rfl
@[simp] theorem State.beginCycle_lineVal (c : Cycle) : (s.beginCycle c).lineVal = c.lineVal := rfl
@[simp] theorem State.beginCycle_rsp (c : Cycle) : (s.beginCycle c).rsp = none := rfl
@[simp] theorem State.beginCycle_lineReads (c : Cycle) : (s.beginCycle c).lineReads = [] := rfl
@[simp] theorem State.beginCycle_inputs (c : Cycle) : (s.beginCycle c).inputs = s.inputs := rfl
@[simp] theorem State.beginCycle_violated (c : Cycle) : (s.beginCycle c).violated = s.violated := rfl
@[simp] theorem State.beginCycle_params (c : Cycle) : (s.beginCycle c).params = s.params := rfl
@[simp] theorem State.beginCycle_epoch (c : Cycle) : (s.beginCycle c).epoch = s.epoch := rfl
@[simp] theorem State.beginCycle_slot (c : Cycle) (j : Nat) : (s.beginCycle c).slot j = s.slot j := rfl

/-! ### `State.present` -/

@[simp] theorem State.present_trace (c : Cycle) : (s.present c).trace = s.trace := rfl
@[simp] theorem State.present_count (c : Cycle) : (s.present c).count = s.count := rfl
@[simp] theorem State.present_enabled (c : Cycle) : (s.present c).enabled = s.enabled := rfl
@[simp] theorem State.present_expectedPrev (c : Cycle) : (s.present c).expectedPrev = s.expectedPrev := rfl
@[simp] theorem State.present_expectedCur (c : Cycle) : (s.present c).expectedCur = s.expectedCur := rfl
@[simp] theorem State.present_store (c : Cycle) : (s.present c).store = s.store := rfl
@[simp] theorem State.present_cursor (c : Cycle) : (s.present c).cursor = s.cursor := rfl
@[simp] theorem State.present_state (c : Cycle) : (s.present c).state = s.state := rfl
@[simp] theorem State.present_first (c : Cycle) : (s.present c).first = s.first := rfl
@[simp] theorem State.present_period (c : Cycle) : (s.present c).period = s.period := rfl
@[simp] theorem State.present_lineVal (c : Cycle) : (s.present c).lineVal = s.lineVal := rfl
@[simp] theorem State.present_rsp (c : Cycle) : (s.present c).rsp = s.rsp := rfl
@[simp] theorem State.present_lineReads (c : Cycle) : (s.present c).lineReads = s.lineReads := rfl
@[simp] theorem State.present_inputs (c : Cycle) : (s.present c).inputs = c :: s.inputs := rfl
@[simp] theorem State.present_violated (c : Cycle) : (s.present c).violated = s.violated := rfl
@[simp] theorem State.present_params (c : Cycle) : (s.present c).params = s.params := rfl
@[simp] theorem State.present_epoch (c : Cycle) : (s.present c).epoch = s.epoch := rfl
@[simp] theorem State.present_slot (c : Cycle) (j : Nat) : (s.present c).slot j = s.slot j := rfl
@[simp] theorem State.present_nextCycle (c : Cycle) : (s.present c).nextCycle = c := rfl
@[simp] theorem State.present_latch (c : Cycle) : (s.present c).latch = s.beginCycle c := rfl

/-! ### `State.latch` -/

@[simp] theorem State.latch_trace : (s.latch).trace = s.trace := rfl
@[simp] theorem State.latch_count : (s.latch).count = s.count := rfl
@[simp] theorem State.latch_enabled : (s.latch).enabled = s.enabled := rfl
@[simp] theorem State.latch_expectedPrev : (s.latch).expectedPrev = s.expectedPrev := rfl
@[simp] theorem State.latch_expectedCur : (s.latch).expectedCur = s.expectedCur := rfl
@[simp] theorem State.latch_store : (s.latch).store = s.store := rfl
@[simp] theorem State.latch_cursor : (s.latch).cursor = s.cursor := rfl
@[simp] theorem State.latch_state : (s.latch).state = s.state := rfl
@[simp] theorem State.latch_first : (s.latch).first = s.first := rfl
@[simp] theorem State.latch_period : (s.latch).period = s.period := rfl
@[simp] theorem State.latch_lineVal : (s.latch).lineVal = s.nextCycle.lineVal := rfl
@[simp] theorem State.latch_rsp : (s.latch).rsp = none := rfl
@[simp] theorem State.latch_lineReads : (s.latch).lineReads = [] := rfl
@[simp] theorem State.latch_inputs : (s.latch).inputs = s.inputs.tail := rfl
@[simp] theorem State.latch_violated : (s.latch).violated = s.violated := rfl
@[simp] theorem State.latch_params : (s.latch).params = s.params := rfl
@[simp] theorem State.latch_epoch : (s.latch).epoch = s.epoch := rfl
@[simp] theorem State.latch_slot (j : Nat) : (s.latch).slot j = s.slot j := rfl

/-! ### `State.evaluateTrigger` -/

@[simp] theorem State.evaluateTrigger_trace : (s.evaluateTrigger).trace = s.trace := by unfold State.evaluateTrigger; split_ifs <;> rfl
@[simp] theorem State.evaluateTrigger_count : (s.evaluateTrigger).count = s.count := by unfold State.evaluateTrigger; split_ifs <;> rfl
@[simp] theorem State.evaluateTrigger_enabled : (s.evaluateTrigger).enabled = s.enabled := by unfold State.evaluateTrigger; split_ifs <;> rfl
@[simp] theorem State.evaluateTrigger_expectedPrev : (s.evaluateTrigger).expectedPrev = s.expectedPrev := by unfold State.evaluateTrigger; split_ifs <;> rfl
@[simp] theorem State.evaluateTrigger_expectedCur : (s.evaluateTrigger).expectedCur = s.expectedCur := by unfold State.evaluateTrigger; split_ifs <;> rfl
@[simp] theorem State.evaluateTrigger_store : (s.evaluateTrigger).store = s.store := by unfold State.evaluateTrigger; split_ifs <;> rfl
@[simp] theorem State.evaluateTrigger_cursor : (s.evaluateTrigger).cursor = s.cursor := by unfold State.evaluateTrigger; split_ifs <;> rfl
@[simp] theorem State.evaluateTrigger_period : (s.evaluateTrigger).period = s.period := by unfold State.evaluateTrigger; split_ifs <;> rfl
@[simp] theorem State.evaluateTrigger_lineVal : (s.evaluateTrigger).lineVal = s.lineVal := by unfold State.evaluateTrigger; split_ifs <;> rfl
@[simp] theorem State.evaluateTrigger_rsp : (s.evaluateTrigger).rsp = s.rsp := by unfold State.evaluateTrigger; split_ifs <;> rfl
@[simp] theorem State.evaluateTrigger_lineReads : (s.evaluateTrigger).lineReads = s.lineReads := by unfold State.evaluateTrigger; split_ifs <;> rfl
@[simp] theorem State.evaluateTrigger_inputs : (s.evaluateTrigger).inputs = s.inputs := by unfold State.evaluateTrigger; split_ifs <;> rfl
@[simp] theorem State.evaluateTrigger_violated : (s.evaluateTrigger).violated = s.violated := by unfold State.evaluateTrigger; split_ifs <;> rfl
@[simp] theorem State.evaluateTrigger_params : (s.evaluateTrigger).params = s.params := by unfold State.evaluateTrigger; split_ifs <;> rfl
@[simp] theorem State.evaluateTrigger_epoch : (s.evaluateTrigger).epoch = s.epoch := by unfold State.evaluateTrigger; split_ifs <;> rfl
@[simp] theorem State.evaluateTrigger_slot (j : Nat) : (s.evaluateTrigger).slot j = s.slot j := by unfold State.slot; rw [State.evaluateTrigger_store, State.evaluateTrigger_epoch]

theorem State.evaluateTrigger_first : s.evaluateTrigger.first = false := by
  unfold State.evaluateTrigger
  split_ifs with hf ht
  · rfl
  · simpa using hf
  · simpa using hf

theorem State.evaluateTrigger_state : s.evaluateTrigger.state =
    if !s.first && trig s.enabled s.expectedPrev s.expectedCur (s.slot 0) (s.slot 1) then .tracing else s.state := by
  unfold State.evaluateTrigger
  cases hf : s.first <;> simp
  split_ifs <;> rfl

/-! ### `State.registerLine` -/

@[simp] theorem State.registerLine_enabled (pin : Pin) : (s.registerLine pin).enabled = s.enabled := by unfold State.registerLine; split_ifs <;> rfl
@[simp] theorem State.registerLine_expectedPrev (pin : Pin) : (s.registerLine pin).expectedPrev = s.expectedPrev := by unfold State.registerLine; split_ifs <;> rfl
@[simp] theorem State.registerLine_expectedCur (pin : Pin) : (s.registerLine pin).expectedCur = s.expectedCur := by unfold State.registerLine; split_ifs <;> rfl
@[simp] theorem State.registerLine_store (pin : Pin) : (s.registerLine pin).store = s.store := by unfold State.registerLine; split_ifs <;> rfl
@[simp] theorem State.registerLine_cursor (pin : Pin) : (s.registerLine pin).cursor = s.cursor := by unfold State.registerLine; split_ifs <;> rfl
@[simp] theorem State.registerLine_state (pin : Pin) : (s.registerLine pin).state = s.state := by unfold State.registerLine; split_ifs <;> rfl
@[simp] theorem State.registerLine_first (pin : Pin) : (s.registerLine pin).first = s.first := by unfold State.registerLine; split_ifs <;> rfl
@[simp] theorem State.registerLine_period (pin : Pin) : (s.registerLine pin).period = s.period := by unfold State.registerLine; split_ifs <;> rfl
@[simp] theorem State.registerLine_lineVal (pin : Pin) : (s.registerLine pin).lineVal = s.lineVal := by unfold State.registerLine; split_ifs <;> rfl
@[simp] theorem State.registerLine_rsp (pin : Pin) : (s.registerLine pin).rsp = s.rsp := by unfold State.registerLine; split_ifs <;> rfl
@[simp] theorem State.registerLine_lineReads (pin : Pin) : (s.registerLine pin).lineReads = s.lineReads := by unfold State.registerLine; split_ifs <;> rfl
@[simp] theorem State.registerLine_inputs (pin : Pin) : (s.registerLine pin).inputs = s.inputs := by unfold State.registerLine; split_ifs <;> rfl
@[simp] theorem State.registerLine_violated (pin : Pin) : (s.registerLine pin).violated = s.violated := by unfold State.registerLine; split_ifs <;> rfl
@[simp] theorem State.registerLine_params (pin : Pin) : (s.registerLine pin).params = s.params := by unfold State.registerLine; split_ifs <;> rfl
@[simp] theorem State.registerLine_epoch (pin : Pin) : (s.registerLine pin).epoch = s.epoch := by unfold State.registerLine; split_ifs <;> rfl
@[simp] theorem State.registerLine_slot (pin : Pin) (j : Nat) : (s.registerLine pin).slot j = s.slot j := by unfold State.slot; rw [State.registerLine_store, State.registerLine_epoch]

theorem State.registerLine_count (pin : Pin) (h : s.count.val < 8) :
    (s.registerLine pin).count.val = s.count.val + 1 := by
  simp [State.registerLine, h]

/-- The new line stands at position `count`; the other entries stay (R90). -/
theorem State.registerLine_trace (pin : Pin) (h : s.count.val < 8) (i : Fin 8) :
    (s.registerLine pin).trace[i] = if i.val = s.count.val then pin else s.trace[i] := by
  by_cases hi : i.val = s.count.val
  · simp [State.registerLine, h, hi]
  · have hi' : s.count.val ≠ i.val := fun e => hi e.symm
    simp [State.registerLine, h, hi, Vector.getElem_set_ne, hi']

end Sys2Proof.Machine
end

