-- ==== Sys2Proof/Laws/Steps.lean ====
section
/-! SUPPORT. What each shared operation and each meaning can answer, said once: later proofs cite these and do not unfold
the meanings. -/

namespace Sys2Proof.Machine

/-! ### Going on from a next state -/

@[simp] theorem andThen_next (s : State) (f : State → Result) : andThen (.next s) f = f s := rfl

theorem andThen_eq_next {r : Result} {f : State → Result} {t : State} :
    andThen r f = .next t ↔ ∃ m, r = .next m ∧ f m = .next t := by
  cases r <;> simp [andThen]

/-! ### Writing the store -/

/-- A write that lands changes the store and nothing else. -/
theorem writeSlot_eq_next {i : Nat} {v : Byte} {s t : State} : writeSlot i v s = .next t ↔
    i < s.params.capacity ∧ t = s.putSlot i v := by
  unfold writeSlot
  split_ifs with h <;> simp [h, eq_comm]

theorem writeSlot_of_lt {i : Nat} (v : Byte) {s : State} (h : i < s.params.capacity) :
    writeSlot i v s = .next (s.putSlot i v) := by
  simp [writeSlot, h]

/-- The slots after a write: the new byte at its index, the old bytes elsewhere. -/
theorem State.putSlot_slot (s : State) (i : Nat) (v : Byte) (j : Nat) :
    (s.putSlot i v).slot j = if j = i then v else s.slot j := by
  simp only [State.slot, State.putSlot_store, State.putSlot_epoch, Memory.byteAt?_write]
  split_ifs <;> rfl

/-! ### The meanings -/

/-- The commands never stop: each answers one next state. -/
theorem execAddTrace_cases (pin : Pin) (s : State) :
    (s.addTraceFailure pin ≠ none ∧ execAddTrace pin s = .next s.markConfiguration.failed) ∨
    (s.addTraceFailure pin = none ∧ execAddTrace pin s = .next ((s.markConfiguration.registerLine pin).succeeded 0)) := by
  unfold execAddTrace
  cases s.addTraceFailure pin <;> simp

theorem execAddTrig_cases (pin : Pin) (edge : Edge) (s : State) :
    ((s.firstPosition pin = none ∨ edgeBits edge = none) ∧ execAddTrig pin edge s = .next s.markConfiguration.failed) ∨
    (∃ i p c, s.firstPosition pin = some i ∧ edgeBits edge = some (p, c) ∧
      execAddTrig pin edge s = .next ((s.markConfiguration.setTrigger i p c).succeeded 0)) := by
  unfold execAddTrig State.triggerTarget
  cases hf : s.firstPosition pin with
  | none => simp
  | some i =>
    cases he : edgeBits edge with
    | none => simp
    | some b => exact .inr ⟨i, b.1, b.2, rfl, rfl, rfl⟩

theorem execRdSample_cases (idx : BitVec 16) (s : State) :
    (s.params.capacity ≤ idx.toNat ∧ execRdSample idx s = .next s.failed) ∨
    (idx.toNat < s.params.capacity ∧ execRdSample idx s = .next (s.succeeded ((s.slot idx.toNat).setWidth 32))) := by
  unfold execRdSample State.rdSampleFailure
  by_cases h : s.params.capacity ≤ idx.toNat
  · simp [h]
  · simp [h]; omega

/-- The state after a `WAITING_FOR_TRIGGER` tick's two writes, before the comparator (R114). -/
def windowShifted (s : State) : State := (s.putSlot 0 (s.slot 1)).putSlot 1 s.pack

theorem windowShifted_slot (s : State) (j : Nat) : (windowShifted s).slot j =
    if j = 1 then s.pack else if j = 0 then s.slot 1 else s.slot j := by
  simp only [windowShifted, State.putSlot_slot]

theorem windowShifted_store (s : State) :
    (windowShifted s).store = Memory.write (Memory.write s.store 0 (s.slot 1)) 1 s.pack := rfl

@[simp] theorem windowShifted_trace (s : State) : (windowShifted s).trace = s.trace := rfl
@[simp] theorem windowShifted_count (s : State) : (windowShifted s).count = s.count := rfl
@[simp] theorem windowShifted_enabled (s : State) : (windowShifted s).enabled = s.enabled := rfl
@[simp] theorem windowShifted_expectedPrev (s : State) : (windowShifted s).expectedPrev = s.expectedPrev := rfl
@[simp] theorem windowShifted_expectedCur (s : State) : (windowShifted s).expectedCur = s.expectedCur := rfl
@[simp] theorem windowShifted_cursor (s : State) : (windowShifted s).cursor = s.cursor := rfl
@[simp] theorem windowShifted_state (s : State) : (windowShifted s).state = s.state := rfl
@[simp] theorem windowShifted_first (s : State) : (windowShifted s).first = s.first := rfl
@[simp] theorem windowShifted_period (s : State) : (windowShifted s).period = s.period := rfl
@[simp] theorem windowShifted_lineVal (s : State) : (windowShifted s).lineVal = s.lineVal := rfl
@[simp] theorem windowShifted_rsp (s : State) : (windowShifted s).rsp = s.rsp := rfl
@[simp] theorem windowShifted_lineReads (s : State) : (windowShifted s).lineReads = s.lineReads := rfl
@[simp] theorem windowShifted_inputs (s : State) : (windowShifted s).inputs = s.inputs := rfl
@[simp] theorem windowShifted_violated (s : State) : (windowShifted s).violated = s.violated := rfl
@[simp] theorem windowShifted_params (s : State) : (windowShifted s).params = s.params := rfl
@[simp] theorem windowShifted_epoch (s : State) : (windowShifted s).epoch = s.epoch := rfl

/-- Everything a `WAITING_FOR_TRIGGER` tick can do (R114). -/
theorem tickWaiting_eq_next {s t : State} : tickWaiting s = .next t ↔
    1 < s.params.capacity ∧ t = (windowShifted s).evaluateTrigger.recordReads s.oracleCalls := by
  unfold tickWaiting
  simp only [andThen_eq_next, writeSlot_eq_next]
  constructor
  · rintro ⟨a, ⟨h0, rfl⟩, b, ⟨h1, rfl⟩, ht⟩
    exact ⟨h1, by simpa [windowShifted] using ht.symm⟩
  · rintro ⟨h, rfl⟩
    exact ⟨_, ⟨by omega, rfl⟩, _, ⟨h, rfl⟩, rfl⟩

/-- Everything a `TRACING` tick can do (R118). -/
theorem tickTracing_eq_next {s t : State} : tickTracing s = .next t ↔
    s.cursor < s.params.capacity ∧
    t = (s.putSlot s.cursor s.pack).advanceCursor.recordReads s.oracleCalls := by
  unfold tickTracing
  simp only [andThen_eq_next, writeSlot_eq_next]
  constructor
  · rintro ⟨a, ⟨h0, rfl⟩, ht⟩
    exact ⟨h0, by simpa using ht.symm⟩
  · rintro ⟨h, rfl⟩
    exact ⟨_, ⟨h, rfl⟩, rfl⟩

/-- Everything a tick can do, by the state it finds (R113). -/
theorem execTick_eq_next {s t : State} : execTick s = .next t ↔
    (s.state = .waitingForTrigger ∧ 1 < s.params.capacity ∧
      t = (windowShifted s).evaluateTrigger.recordReads s.oracleCalls) ∨
    (s.state = .tracing ∧ s.cursor < s.params.capacity ∧
      t = (s.putSlot s.cursor s.pack).advanceCursor.recordReads s.oracleCalls) ∨
    (s.state = .done ∧ t = s) := by
  unfold execTick
  split
  · next h => rw [tickWaiting_eq_next]; simp [h]
  · next h => rw [tickTracing_eq_next]; simp [h]
  · next h => simp [h, eq_comm]

/-- Everything one clock cycle can do (R71): hardware reset alone, or a command and then a tick. -/
theorem step_eq_next {s t : State} : step s = .next t ↔
    (s.nextCycle.rst = true ∧ t = s.latch.hardwareReset) ∨
    (s.nextCycle.rst = false ∧ ∃ m, runCommand s.nextCycle s.latch = .next m ∧ runTick s.nextCycle m = .next t) := by
  unfold step clockEdge runCycle
  cases s.nextCycle.rst with
  | true => simp [eq_comm]
  | false => simp [andThen_eq_next]

/-- A step on a presented cycle runs the events of that cycle, on the state whose ports it drives. -/
theorem step_present (s : State) (c : Cycle) : step (s.present c) = runCycle c (s.beginCycle c) := rfl

/-- Everything the command part of a cycle can do: nothing, a decoded operation, or the failure of an illegal word. -/
theorem runCommand_eq_next {c : Cycle} {s t : State} : runCommand c s = .next t ↔
    (c.cmdValid = false ∧ t = s) ∨ (c.cmdValid = true ∧ ∃ i, decode c.cmd = .ok i ∧ exec i s = .next t) ∨
    (c.cmdValid = true ∧ (∃ e, decode c.cmd = .error e) ∧ t = s.failed) := by
  unfold runCommand execWord
  cases c.cmdValid with
  | false => simp [eq_comm]
  | true =>
    cases h : decode c.cmd with
    | error e => simp [eq_comm]
    | ok i => simp

theorem runTick_eq_next {c : Cycle} {s t : State} : runTick c s = .next t ↔
    (c.tick = false ∧ t = s) ∨ (c.tick = true ∧ execTick s = .next t) := by
  unfold runTick
  cases c.tick <;> simp [exec, eq_comm]

/-! ### Runs -/

/-- The cycle of an event carries that event alone. -/
@[simp] theorem Event.events_cycle (e : Event) : e.cycle.events = [e] := by cases e <;> rfl

@[simp] theorem runCycles_nil (s : State) : runCycles [] s = .next s := rfl

theorem runCycles_cons (c : Cycle) (cs : List Cycle) (s : State) :
    runCycles (c :: cs) s = andThen (step (s.present c)) (runCycles cs) := rfl

theorem andThen_assoc (r : Result) (f g : State → Result) :
    andThen (andThen r f) g = andThen r fun s => andThen (f s) g := by
  cases r <;> rfl

/-- A list of cycles is run in two parts. -/
theorem runCycles_append (cs ds : List Cycle) (s : State) :
    runCycles (cs ++ ds) s = andThen (runCycles cs s) (runCycles ds) := by
  induction cs generalizing s with
  | nil => rfl
  | cons c cs ih => rw [List.cons_append, runCycles_cons, runCycles_cons, andThen_assoc, funext ih]

theorem runSteps_succ (k : Nat) (s : State) : runSteps (k + 1) s = andThen (step s) (runSteps k) := rfl

theorem runSchedule_succ (schedule : Nat → Cycle) (k : Nat) (s : State) :
    runSchedule schedule (k + 1) s = andThen (runSchedule schedule k s) fun t => step (t.present (schedule k)) := rfl

end Sys2Proof.Machine
end

