-- ==== Sys2Proof/Tests/Slice0.lean ====
section
/-! SUPPORT. Small tests of single steps, their expected results taken from 95_test_vectors.md (the vector is named in each
comment) or worked out by hand from the rule named; and, for each statement with hypotheses, a state that meets them. -/

namespace Sys2Proof.Tests
open Sys2Proof Sys2Proof.Machine

/-- The state a meaning answers, if it answers one. -/
def nextOf : Result → Option State
  | .next s => some s
  | .fault _ => none
  | .refused _ => none

/-- What a field of the answered state is. -/
def after {α : Type} (r : Result) (f : State → α) : Option α := (nextOf r).map f

/-- A state with capacity `n`, these lines registered, and everything else as after reset. -/
def withLines (n : Nat) (pins : Vector Pin 8) (count : Fin 9) : State :=
  { State.reset with params := { capacity := n, pinMin := 0, pinMax := 13 }, trace := pins, count := count }

/-- The line 2 at position 0, capacity 8. -/
def oneLine : State := withLines 8 #v[2, 0, 0, 0, 0, 0, 0, 0] 1

/-- `oneLine` in `TRACING` after a rising trigger on position 0, about to write the slot at `cursor`. -/
def tracingAt (cursor : Nat) : State :=
  { oneLine with
    state := .tracing, cursor := cursor, enabled := 1, expectedCur := 1
    store := Memory.write (Memory.zeroed 8) 1 1, lineVal := 1 }

/-- `oneLine` armed with a rising trigger on position 0, its first tick done, and slot 1 holding `prev`. -/
def armedRising (prev : Byte) : State :=
  { oneLine with
    state := .waitingForTrigger, cursor := 2, enabled := 1, expectedCur := 1, lineVal := 1
    store := Memory.write (Memory.zeroed 8) 1 prev }

/-- The next cycle carries these ports. -/
def presented (s : State) (c : Cycle) : State := { s with inputs := [c] }

/-! ### Encoding: V0 -/

theorem test_decode_addTrace : decode 0x10000000D = .ok (.addTrace 13) := by decide
theorem test_decode_addTrig : decode 0x200000102 = .ok (.addTrig 2 .falling) := by decide
theorem test_decode_addTrig_unrecognised : decode 0x200000504 = .ok (.addTrig 4 (.unrecognised 1)) := by decide
theorem test_decode_setPeriod : decode 0x3FFFFFFFF = .ok (.setPeriod 0xFFFFFFFF) := by decide
theorem test_decode_reset : decode 0x400000000 = .ok .reset := by decide
theorem test_decode_start : decode 0x500000000 = .ok .start := by decide
theorem test_decode_isActive : decode 0x600000000 = .ok .isActive := by decide
theorem test_decode_isDone : decode 0x700000000 = .ok .isDone := by decide
theorem test_decode_rdSample : decode 0x8000001F3 = .ok (.rdSample 499) := by decide
theorem test_decode_rdPeriod : decode 0x900000000 = .ok .rdPeriod := by decide
theorem test_decode_rdCount : decode 0xA00000000 = .ok .rdCount := by decide
theorem test_decode_tick : decodePort (.strobe 1) = .ok .tick := by decide
theorem test_decode_op_zero : decode 0x000000000 = .error (.opcodeUnassigned 0) := by decide
theorem test_decode_op_f : decode 0xF0000007B = .error (.opcodeUnassigned 15) := by decide
theorem test_decode_addTrace_reserved : decode 0x100000100 = .error (.reservedBitSet 1) := by decide
theorem test_decode_rdSample_reserved : decode 0x800010000 = .error (.reservedBitSet 8) := by decide
theorem test_encode_addTrig : encode (.addTrig 2 .low) = .cmd 0x200000302 := by decide
theorem test_table_word_command : decodeTableWord 40 0x8000001F3 = some (.rdSample 499) := by decide
theorem test_table_word_strobe : decodeTableWord 8 1 = some .tick := by decide

/-! ### Well-formed script lines: each check refuses an ill-formed line (R80) -/

theorem test_script_pin_above_255 : (ScriptLine.addTrace 256).wellFormed 0 = false := by decide
theorem test_script_trig_pin_above_255 : (ScriptLine.addTrig 256 .rising).wellFormed 0 = false := by decide
theorem test_script_edge_below_4 : (ScriptLine.addTrig 2 (.number 3)).wellFormed 0 = false := by decide
theorem test_script_edge_above_7 : (ScriptLine.addTrig 2 (.number 8)).wellFormed 0 = false := by decide
theorem test_script_period_too_wide : (ScriptLine.setPeriod (2 ^ 32)).wellFormed 0 = false := by decide
theorem test_script_index_too_wide : (ScriptLine.rdSample 65536).wellFormed 0 = false := by decide
theorem test_script_level_pin_above_255 : (ScriptLine.tickLines [(256, true)]).wellFormed 0 = false := by decide
theorem test_script_answers_not_count : (ScriptLine.tickPositions [true]).wellFormed 2 = false := by decide
theorem test_script_legal_edge_number : (ScriptLine.addTrig 2 (.number 5)).wellFormed 0 = true := by decide

/-! ### Configuration -/

/-- V1.2, with the pin of V1.6 (a duplicate is accepted). -/
theorem test_addTrace_duplicate : after (exec (.addTrace 2) oneLine) (fun t => (t.count, t.trace[1])) = some (2, 2) := by
  decide

/-- V1.3: out of range, nothing registered. -/
theorem test_addTrace_out_of_range :
    after (exec (.addTrace 14) oneLine) (fun t => (t.count, t.rsp)) = some (1, some { ok := false, data := 0 }) := by decide

/-- V2.7: a second trigger on the line replaces the first. -/
theorem test_addTrig_replaces : after (exec (.addTrig 2 .falling) { oneLine with enabled := 1, expectedCur := 1 })
    (fun t => (t.enabled, t.expectedPrev, t.expectedCur)) = some (1, 1, 0) := by decide

/-- V2.11: a stale entry never matches. -/
theorem test_addTrig_stale : after (exec (.addTrig 3 .rising) (withLines 8 #v[2, 3, 0, 0, 0, 0, 0, 0] 1))
    (fun t => (t.enabled, t.rsp)) = some (0, some { ok := false, data := 0 }) := by decide

/-- V3.4: the state does not matter. -/
theorem test_setPeriod_tracing : after (exec (.setPeriod 7) (tracingAt 3)) (fun t => (t.period, t.state, t.cursor)) =
    some (7, .tracing, 3) := by decide

/-- V4.3: the store survives. -/
theorem test_reset_keeps_store : after (exec .reset (tracingAt 3)) (fun t => (t.state, t.cursor, t.count, t.slot 1)) =
    some (.done, 0, 0, 1) := by decide

/-! ### Capture -/

/-- V5.2: re-armed from `TRACING`. -/
theorem test_start_rearms : after (exec .start (tracingAt 3)) (fun t => (t.state, t.cursor, t.first, t.slot 1)) =
    some (.waitingForTrigger, 2, true, 0) := by decide

/-- V5.3: the first tick never triggers. -/
theorem test_tick_first : after (exec .tick { armedRising 0 with first := true })
    (fun t => (t.state, t.first, t.slot 0, t.slot 1)) = some (.waitingForTrigger, false, 0, 1) := by decide

/-- S5, third tick: low, then high. -/
theorem test_tick_rising_fires : after (exec .tick (armedRising 0)) (fun t => (t.state, t.slot 0, t.slot 1)) =
    some (.tracing, 0, 1) := by decide

/-- V6.3: the tick that writes the last slot ends the capture. -/
theorem test_tick_completes : after (exec .tick (tracingAt 7)) (fun t => (t.state, t.cursor, t.slot 7)) =
    some (.done, 8, 1) := by decide

/-- V6.7: two positions of one line answered differently. -/
theorem test_tick_skew : after (exec .tick { tracingAt 2 with trace := #v[6, 6, 0, 0, 0, 0, 0, 0], count := 2 })
    (fun t => (t.slot 2, t.lineReads)) =
    some (1, [{ position := 0, pin := 6, level := true }, { position := 1, pin := 6, level := false }]) := by decide

/-- V7. -/
theorem test_isActive_armed : after (exec .isActive (armedRising 0)) (fun t => t.rsp) =
    some (some { ok := true, data := 0 }) := by decide

/-- V7. -/
theorem test_isDone_after_reset : after (exec .isDone State.reset) (fun t => t.rsp.map Response.word) =
    some (some 0x100000001) := by decide

/-! ### Reporting -/

/-- V8.1. -/
theorem test_rdSample : after (exec (.rdSample 1) (tracingAt 3)) (fun t => t.rsp) =
    some (some { ok := true, data := 1 }) := by decide

/-- V8.2. -/
theorem test_rdSample_outside : after (exec (.rdSample 8) (tracingAt 3)) (fun t => t.rsp) =
    some (some { ok := false, data := 0 }) := by decide

/-- V3.5. -/
theorem test_rdPeriod : after (exec .rdPeriod { oneLine with period := 100 }) (fun t => t.rsp) =
    some (some { ok := true, data := 100 }) := by decide

/-- V8.6. -/
theorem test_rdCount : after (exec .rdCount { oneLine with count := 3 }) (fun t => t.rsp) =
    some (some { ok := true, data := 3 }) := by decide

/-- R144, its example with the first four slots: `store = 01 02 03 00`. -/
theorem test_report : State.report { withLines 4 #v[3, 5, 0, 0, 0, 0, 0, 0] 2 with store := [(0, 1), (1, 2), (2, 3), (3, 0)] } =
    { period := 0, columns := [0, 1, 2, 3], rows := [[1, 0, 1, 0], [0, 1, 1, 0]] } := by decide

/-- V9.3: no lines, no rows. -/
theorem test_report_no_rows : (State.report (withLines 6 #v[0, 0, 0, 0, 0, 0, 0, 0] 0)).rows = [] := by decide

/-! ### The clock cycle -/

/-- V0.12 as the first word after reset. -/
theorem test_step_start : after (step (State.reset.withFetchWord 40 0x500000000)) (fun t => (t.state, t.inputs)) =
    some (.waitingForTrigger, []) := by decide

/-- V6.5: a tick after reset changes nothing. -/
theorem test_step_tick_after_reset : after (step (State.reset.withFetchWord 8 1)) (fun t => (t.state, t.lineReads)) =
    some (.done, []) := by decide

/-- V0.24: an illegal word only answers a failure. -/
theorem test_step_illegal : after (step (State.reset.withFetchWord 40 0x400000001)) (fun t => (t.state, t.rsp)) =
    some (.done, some { ok := false, data := 0 }) := by decide

/-- R80, line form, on the lines 4, 7, 4: `TICK {4=1, 7=0}` answers 1, 0, 1. -/
theorem test_script_line_form : (scriptCycles (withLines 8 #v[4, 7, 4, 0, 0, 0, 0, 0] 3) (.tickLines [(4, true)])).map
    (fun c => (c.tick, packUpTo c.lineVal 3)) = [(true, 5)] := by decide

/-! ### Hypotheses that are met -/

theorem witness_illegalWord : ∃ s : State, s.nextCycle.rst = false ∧ s.nextCycle.cmdValid = true ∧ s.nextCycle.tick = false ∧
    ∀ r ∈ opcodeTable, r.selects s.nextCycle.cmd = false :=
  ⟨presented State.reset { cmdValid := true, cmd := 0x100000100 }, by decide, by decide, by decide, by decide⟩

theorem witness_stepRunsCommand : ∃ (s : State) (i : Instr), s.nextCycle.rst = false ∧ s.nextCycle.cmdValid = true ∧
    s.nextCycle.tick = false ∧ decode s.nextCycle.cmd = .ok i :=
  ⟨presented State.reset { cmdValid := true, cmd := 0x300000064 }, .setPeriod 100, by decide, by decide, by decide, by decide⟩

theorem witness_stepRunsTick : ∃ s : State, s.nextCycle.rst = false ∧ s.nextCycle.cmdValid = false ∧ s.nextCycle.tick = true :=
  ⟨presented (tracingAt 3) { tick := true }, by decide, by decide, by decide⟩

theorem witness_hardwareReset : ∃ s t u : State, exec .reset s.latch = .next t ∧ s.nextCycle.rst = true ∧ step s = .next u :=
  ⟨presented (tracingAt 3) { rst := true }, _, _, rfl, rfl, rfl⟩

theorem oneLine_in_range : ∀ i : Fin 8, i.val < oneLine.count.val →
    oneLine.params.pinMin ≤ oneLine.trace[i].toNat ∧ oneLine.trace[i].toNat ≤ oneLine.params.pinMax := by decide

theorem tracing_mask : (tracingAt 2).MaskInv := ⟨by decide, by decide, by decide⟩

/-- The invariant holds of a state that is capturing. -/
theorem tracingAt_inv (c : Nat) (h : 2 ≤ c) (h' : c < 8) : (tracingAt c).Inv where
  params_valid := (by decide : oneLine.params.Valid)
  mask := ⟨tracing_mask.prev_within, tracing_mask.cur_within, tracing_mask.enabled_registered⟩
  cursor_waiting e := nomatch e
  cursor_tracing _ := ⟨h, h'⟩
  cursor_done e := nomatch e
  store_specified _ := (by decide : ∀ j, j < 8 → (Memory.byteAt? (tracingAt 2).store j).isSome = true)
  trace_in_range := oneLine_in_range
  store_canonical := (by decide : Memory.wf (tracingAt 2).store = true)
  store_in_range := (by decide : ∀ c ∈ (tracingAt 2).store, c.1 < 8)
  unwritten_waiting e := nomatch e
  unwritten_tracing _ j hj hj' :=
    (by decide : ∀ j, j < 8 → 2 ≤ j → (tracingAt 2).slot j = 0) j hj' (h.trans hj)

theorem tracingAt_presented_inv (c : Nat) (h : 2 ≤ c) (h' : c < 8) (p : Cycle) : (presented (tracingAt c) p).Inv :=
  let i := tracingAt_inv c h h'
  ⟨i.params_valid, ⟨i.mask.prev_within, i.mask.cur_within, i.mask.enabled_registered⟩, i.cursor_waiting, i.cursor_tracing,
    i.cursor_done, i.store_specified, i.trace_in_range, i.store_canonical, i.store_in_range, i.unwritten_waiting,
    i.unwritten_tracing⟩

/-- A command `w` and a tick in one cycle, at the last slot of a store of 8. -/
def sameCycle (w : CmdWord) : State := presented (tracingAt 7) { cmdValid := true, tick := true, cmd := w }

theorem witness_sameCycle_start : (sameCycle 0x500000000).Inv ∧ (sameCycle 0x500000000).nextCycle.rst = false ∧
    (sameCycle 0x500000000).nextCycle.cmdValid = true ∧ (sameCycle 0x500000000).nextCycle.tick = true ∧
    decode (sameCycle 0x500000000).nextCycle.cmd = .ok .start :=
  ⟨tracingAt_presented_inv 7 (by decide) (by decide) _, rfl, rfl, rfl, by decide⟩

theorem witness_sameCycle_reset : (sameCycle 0x400000000).Inv ∧ (sameCycle 0x400000000).nextCycle.rst = false ∧
    (sameCycle 0x400000000).nextCycle.cmdValid = true ∧ (sameCycle 0x400000000).nextCycle.tick = true ∧
    decode (sameCycle 0x400000000).nextCycle.cmd = .ok .reset :=
  ⟨tracingAt_presented_inv 7 (by decide) (by decide) _, rfl, rfl, rfl, by decide⟩

theorem witness_sameCycle_rdSample : (sameCycle 0x800000007).Inv ∧ (sameCycle 0x800000007).nextCycle.rst = false ∧
    (sameCycle 0x800000007).nextCycle.cmdValid = true ∧ (sameCycle 0x800000007).nextCycle.tick = true ∧
    decode (sameCycle 0x800000007).nextCycle.cmd = .ok (.rdSample 7) ∧ (7#16).toNat < (sameCycle 0x800000007).params.capacity :=
  ⟨tracingAt_presented_inv 7 (by decide) (by decide) _, rfl, rfl, rfl, by decide, by decide⟩

/-- A cycle with no event. -/
theorem witness_idleCycle : ({ lineVal := 1 } : Cycle).events = [] ∧ (tracingAt 3).Inv :=
  ⟨rfl, tracingAt_inv 3 (by decide) (by decide)⟩

theorem witness_clockCycle : ∃ s a : State,
    a = { s with inputs := s.inputs.tail, lineVal := s.nextCycle.lineVal, rsp := none, lineReads := [] } :=
  ⟨sameCycle 0x500000000, _, rfl⟩

/-- A command and a tick in one cycle: two events, the command first (R71). -/
theorem test_events_command_then_tick : ({ cmdValid := true, tick := true, cmd := 0x500000000, lineVal := 1 } : Cycle).events =
    [.command 0x500000000, .tick 1] := by decide

theorem witness_cycleEvents : ∃ (s t : State) (c : Cycle), step (s.present c) = .next t :=
  ⟨tracingAt 3, _, { cmdValid := true, tick := true, cmd := 0x500000000, lineVal := 1 }, rfl⟩

/-- Ticks for ever, on lines that alternate: the run's first two cycles after `START`. -/
theorem test_schedule_ticks : after (runSchedule (fun k => (Event.tick (BitVec.ofNat 8 k)).cycle) 2 oneLine.arm)
    (fun t => (t.state, t.slot 0, t.slot 1)) = some (.tracing, 0, 1) := by decide

theorem witness_outputs : ∃ (s t : State) (o : Outputs), step s = .next t ∧ s.outputs = .ok o :=
  ⟨presented (tracingAt 3) { tick := true }, _, _, rfl, rfl⟩

/-- The last free position and the greatest pin; the pin just above it; the full table. -/
theorem witness_addTrace : ∃ s u v : State,
    ((s.params.pinMin ≤ (13#8).toNat ∧ (13#8).toNat ≤ s.params.pinMax) ∧ s.count.val < 8 ∧ s.count.val = 7) ∧
    ¬(14#8).toNat ≤ u.params.pinMax ∧ v.count.val = 8 :=
  ⟨{ oneLine with count := 7 }, oneLine, { oneLine with count := 8 }, by decide, by decide, by decide⟩

/-- A line registered twice: the lower position is the one. An unregistered line, and an edge that is not recognised. -/
theorem witness_addTrig : ∃ (s : State) (i : Fin 8) (pin pin' : Pin), i.val < s.count.val ∧ s.trace[i] = pin ∧
    (∀ k : Fin 8, k < i → s.trace[k] ≠ pin) ∧ (∀ k : Fin 8, k.val < s.count.val → s.trace[k] ≠ pin') ∧
    edgeBits .falling ≠ none ∧ edgeBits (.unrecognised 3) = none :=
  ⟨withLines 8 #v[4, 7, 7, 0, 0, 0, 0, 9] 3, 1, 7, 9, by decide, by decide, by decide, by decide, by decide, by decide⟩

theorem witness_laterTrigger : ∃ s t u : State, edgeBits .falling ≠ none ∧ exec (.addTrig 2 .rising) s = .next t ∧
    exec (.addTrig 2 .falling) s = .next u :=
  ⟨oneLine, _, _, by decide, rfl, rfl⟩

theorem witness_configuration : ∃ s t u v : State, exec (.addTrace 5) s = .next t ∧ exec (.addTrig 2 .high) s = .next u ∧
    exec (.setPeriod 9) s = .next v :=
  ⟨oneLine, _, _, _, rfl, rfl, rfl⟩

theorem witness_periodDrivesNothing : ∃ s t : State, Instr.tick ≠ .rdPeriod ∧ Instr.tick ≠ .reset ∧
    (∀ q, Instr.tick ≠ .setPeriod q) ∧ exec .tick s = .next t :=
  ⟨tracingAt 3, _, by decide, by decide, fun _ => Instr.noConfusion, rfl⟩

theorem witness_staleEntries : ∃ (s t : State) (tr : Vector Pin 8),
    (∀ k : Fin 8, k.val < s.count.val → tr[k] = s.trace[k]) ∧ tr ≠ s.trace ∧ exec (.addTrig 2 .low) s = .next t :=
  ⟨oneLine, _, #v[2, 9, 9, 9, 9, 9, 9, 9], by decide, by decide, rfl⟩

theorem witness_firstMark : ∃ s t : State, s.state ≠ .waitingForTrigger ∧ exec .start s = .next t ∧
    t.state = .waitingForTrigger :=
  ⟨oneLine, _, by decide, rfl, rfl⟩

theorem witness_tickWaiting : ∃ s : State, s.state = .waitingForTrigger ∧ 1 < s.params.capacity :=
  ⟨armedRising 0, rfl, by decide⟩

/-- The last slot and the first. -/
theorem witness_tickTracing : ∃ s u : State, (s.state = .tracing ∧ s.cursor < s.params.capacity ∧ s.cursor = 7) ∧
    (u.state = .tracing ∧ u.cursor = 2 ∧ 3 ≤ u.params.capacity) :=
  ⟨tracingAt 7, tracingAt 2, by decide, by decide⟩

theorem witness_tickDone : ∃ s : State, s.state = .done := ⟨State.reset, rfl⟩

theorem witness_oracleCalls : ∃ s t : State, s.state ≠ .done ∧ exec .tick s = .next t :=
  ⟨tracingAt 3, _, by decide, rfl⟩

/-- A mask that keeps its invariant and one that breaks it. -/
theorem witness_comparator : ((1#8) &&& ~~~(3#8) = 0 ∧ (2#8) &&& ~~~(3#8) = 0) ∧ (1#8) &&& ~~~(2#8) ≠ 0 := by decide

theorem witness_start : ∃ s a : State, s.params.Valid ∧ exec .start s = .next a := ⟨oneLine, _, by decide, rfl⟩

/-- A rising trigger on position 0: the lines go high on tick 3, which is the first window that fires. -/
theorem witness_capture : ∃ (s a : State) (levels : Nat → Byte), s.params.Valid ∧ exec .start s = .next a ∧
    a.firesAt levels 3 = true ∧ (∀ k, 2 ≤ k → k < 3 → a.firesAt levels k = false) :=
  ⟨{ oneLine with enabled := 1, expectedCur := 1 }, _, fun k => if k < 3 then 0 else 1, by decide, rfl, by decide, by decide⟩

/-- A rising trigger and lines that stay high: no window of the first five ticks fires. -/
theorem witness_noTrigger : ∃ (s a : State) (levels : Nat → Byte), s.params.Valid ∧ exec .start s = .next a ∧
    ∀ k, 2 ≤ k → k ≤ 5 → a.firesAt levels k = false :=
  ⟨{ oneLine with enabled := 1, expectedCur := 1 }, _, fun _ => 1, by decide, rfl, by decide⟩

theorem witness_freeRun : ∃ s a : State, s.params.Valid ∧ s.enabled = 0 ∧ s.expectedPrev = 0 ∧ s.expectedCur = 0 ∧
    exec .start s = .next a :=
  ⟨oneLine, _, by decide, rfl, rfl, rfl, rfl⟩

theorem witness_invariants : ∃ s t : State, s.Inv ∧ s.FirstPositionsEnabled ∧ s.SamplesWithinCount ∧
    s.nextCycle.command ≠ some .reset ∧ step s = .next t := by
  refine ⟨presented (tracingAt 3) { tick := true, lineVal := 1 }, _, tracingAt_presented_inv 3 (by decide) (by decide) _, ?_, ?_,
    by decide, rfl⟩
  · exact (by decide : ∀ i : Fin 8, (tracingAt 3).enabled.getLsbD i = true →
      ∀ k : Fin 8, k < i → (tracingAt 3).trace[k] ≠ (tracingAt 3).trace[i])
  · intro j v h b hb
    have hv : v = 0 ∨ v = 1 := by
      have hj : j < 8 ∨ 8 ≤ j := by omega
      rcases hj with hj | hj
      · interval_cases j <;> (cases h; simp)
      · have hne : Memory.byteAt? (Memory.zeroed 8) j = none ∧ j ≠ 1 := by
          refine ⟨?_, by omega⟩
          have h0 : ∀ i, i < 8 → j ≠ i := by omega
          simp [Memory.zeroed, List.range, List.range.loop, Memory.byteAt?, h0]
        have h0 : ∀ i, i < 8 → j ≠ i := by omega
        simp [presented, tracingAt, Memory.zeroed, List.range, List.range.loop, Memory.write, Memory.byteAt?, h0] at h
    have hb1 : 1 ≤ b := hb
    rcases hv with rfl | rfl
    · simp
    · have h1 : (1#8).getLsbD b = (decide (0 < 8) && decide (b = 0)) := BitVec.getLsbD_one
      exact h1.trans (by simp; omega)

theorem witness_reachable : ∃ s : State, Reachable s :=
  ⟨State.reset, .reset _ ⟨rfl, rfl, rfl, rfl, rfl, rfl, rfl, rfl, rfl, by decide⟩⟩

/-- What a list of cycles leads to is reachable. -/
theorem reachable_runCycles (cs : List Cycle) {s t : State} (h : Reachable s) (e : runCycles cs s = .next t) :
    Reachable t := by
  induction cs generalizing s with
  | nil => cases e; exact h
  | cons c cs ih =>
    rw [runCycles_cons, andThen_eq_next] at e
    obtain ⟨m, hm, ht⟩ := e
    exact ih (.step _ _ (.present _ c h) hm) ht

/-- An engine of capacity 8 after hardware reset. -/
def smallReset : State := withLines 8 #v[0, 0, 0, 0, 0, 0, 0, 0] 0

theorem smallReset_reachable : Reachable smallReset :=
  .reset _ ⟨rfl, rfl, rfl, rfl, rfl, rfl, rfl, rfl, rfl, by decide⟩

/-- `START`: slot 2 waits to be written. -/
theorem witness_unwritten_waiting : ∃ s : State, Reachable s ∧ (2#16).toNat < s.params.capacity ∧
    s.state = .waitingForTrigger ∧ 2 ≤ (2#16).toNat :=
  ⟨_, reachable_runCycles [(Event.command 0x500000000).cycle] smallReset_reachable rfl, by decide, rfl, by decide⟩

/-- `START` and three ticks in free run: slot 2 is written, slot 3 waits. -/
theorem witness_unwritten_tracing : ∃ s : State, Reachable s ∧ (3#16).toNat < s.params.capacity ∧
    s.state = .tracing ∧ s.cursor ≤ (3#16).toNat ∧ s.cursor = 3 :=
  ⟨_, reachable_runCycles [(Event.command 0x500000000).cycle, (Event.tick 1).cycle, (Event.tick 1).cycle, (Event.tick 1).cycle]
    smallReset_reachable rfl, by decide, rfl, by decide, rfl⟩

/-- The last slot and the first index outside. -/
theorem witness_readSample : ∃ s : State, (7#16).toNat < s.params.capacity ∧ s.params.capacity ≤ (8#16).toNat :=
  ⟨oneLine, by decide, by decide⟩

/-- The expansion on one line and three slots, with a tick in the middle. -/
theorem witness_dump : ∃ (s : State) (events : List Instr), s.state = .done ∧ s.params.capacity ≤ 65536 ∧ .tick ∈ events ∧
    events.filter Instr.isCommand = dumpCommands s.params.capacity s.count.val :=
  ⟨withLines 3 #v[2, 0, 0, 0, 0, 0, 0, 0] 1, [.rdPeriod, .rdCount, .rdSample 0, .tick, .rdSample 1, .rdSample 2],
    rfl, by decide, by decide, by decide⟩

theorem witness_failure : ∃ (s t : State) (r : Response), (Instr.addTrace 14).isCommand = true ∧
    exec (.addTrace 14) s = .next t ∧ t.rsp = some r ∧ r.ok = false :=
  ⟨oneLine, _, _, rfl, rfl, rfl, rfl⟩

theorem witness_noRow : ∀ r ∈ opcodeTable, r.selects 0xB00000000 = false := by decide

theorem witness_reports : ∃ s : State, s.count.val = 1 ∧ s.params.capacity = 8 := ⟨oneLine, rfl, rfl⟩

/-- A step that sets the protocol mark, and one that clears it. -/
theorem witness_protocolMark : ∃ s t u v : State, step s = .next t ∧ t.violated = true ∧ step u = .next v ∧ u.violated = true ∧
    v.violated = false :=
  ⟨presented (tracingAt 3) { cmdValid := true, cmd := 0x100000002 }, _,
    presented { tracingAt 3 with violated := true } { rst := true }, _, rfl, by decide, rfl, rfl, rfl⟩

/-- The two states in which a tick finds its slot outside the store. -/
theorem witness_tickFaults : ∃ s u : State, s.state = .waitingForTrigger ∧ s.params.capacity ≤ 1 ∧ u.state = .tracing ∧
    u.params.capacity ≤ u.cursor :=
  ⟨{ armedRising 0 with params := { capacity := 1, pinMin := 0, pinMax := 13 } }, tracingAt 8, rfl, by decide, rfl, by decide⟩

end Sys2Proof.Tests
end

section
/-! PROOFS. Family 30_encoding.md: an illegal word (R78) and the level outputs (R82). -/

namespace Sys2Proof

/-! ### Legal words select a row of the table -/

theorem whenReservedZero_eq_ok {w : CmdWord} {zero : Bool} {i j : Instr} :
    whenReservedZero w zero i = .ok j ↔ zero = true ∧ i = j := by
  cases zero <;> simp [whenReservedZero]

/-- The bits a format reserves are those from some bit `k` up to bit 31 (R74): where they are 0 in the word, the mask of
these bits takes nothing from its operand part. -/
theorem operands_and_reserved {w : CmdWord} (k : Nat) (h : w.extractLsb' k (32 - k) = 0) :
    periodField w &&& (BitVec.allOnes 32 <<< k) = 0 := by
  apply BitVec.eq_of_getLsbD_eq
  intro b hb
  by_cases hk : b < k
  · simp [hk]
  · have hbit : (w.extractLsb' k (32 - k)).getLsbD (b - k) = false := by rw [h]; exact BitVec.getLsbD_zero
    have hlt : b - k < 32 - k := by omega
    have hadd : k + (b - k) = b := by omega
    have hw : w.getLsbD b = false := by simpa [hlt, hadd] using hbit
    simp [periodField, hw]

/-- A word with opcode `op` whose bits from `k` up are 0 in its operand part selects the row that fixes just these. -/
theorem row_selects_of_fields (name : String) (op : BitVec 4) (k : Nat) {w : CmdWord}
    (hop : (opField w).toNat = op.toNat) (hres : w.extractLsb' k (32 - k) = 0) :
    OpcodeRow.selects { mnemonic := name, matchBits := cmdWord op 0, maskBits := cmdWord 0xF (BitVec.allOnes 32 <<< k) } w
      = true := by
  have hw : cmdWord op (periodField w) = w := by rw [← BitVec.eq_of_toNat_eq hop, cmdWord_of_fields]
  have hsel := Laws.EncodeSelectsRow.cmdWord_selects name op (periodField w) _ (operands_and_reserved k hres)
  rwa [hw] at hsel

/-- The same for a word that passes the decoder's test of its reserved bits. -/
theorem row_selects_of_decoded (name : String) (op : BitVec 4) (k : Nat) {w : CmdWord} {i j : Instr}
    (hop : (opField w).toNat = op.toNat) (h : whenReservedZero w (w.extractLsb' k (32 - k) == 0) i = .ok j) :
    OpcodeRow.selects { mnemonic := name, matchBits := cmdWord op 0, maskBits := cmdWord 0xF (BitVec.allOnes 32 <<< k) } w
      = true :=
  row_selects_of_fields name op k hop (by simpa using (whenReservedZero_eq_ok.1 h).1)

/-- Every word the decoder accepts is selected by the row of its opcode (R75, R78). -/
theorem exists_row_selects_of_decode {w : CmdWord} {i : Instr} (h : decode w = .ok i) :
    ∃ r ∈ opcodeTable, r.selects w = true := by
  unfold decode decodeZ at h
  split at h
  next hop => exact ⟨opcodeTable[0], List.getElem_mem _, row_selects_of_decoded _ 0x1 8 hop h⟩
  next hop => exact ⟨opcodeTable[1], List.getElem_mem _, row_selects_of_decoded _ 0x2 11 hop h⟩
  next hop => exact ⟨opcodeTable[2], List.getElem_mem _, row_selects_of_fields _ 0x3 32 hop BitVec.of_length_zero⟩
  next hop => exact ⟨opcodeTable[3], List.getElem_mem _, row_selects_of_decoded _ 0x4 0 hop h⟩
  next hop => exact ⟨opcodeTable[4], List.getElem_mem _, row_selects_of_decoded _ 0x5 0 hop h⟩
  next hop => exact ⟨opcodeTable[5], List.getElem_mem _, row_selects_of_decoded _ 0x6 0 hop h⟩
  next hop => exact ⟨opcodeTable[6], List.getElem_mem _, row_selects_of_decoded _ 0x7 0 hop h⟩
  next hop => exact ⟨opcodeTable[7], List.getElem_mem _, row_selects_of_decoded _ 0x8 16 hop h⟩
  next hop => exact ⟨opcodeTable[8], List.getElem_mem _, row_selects_of_decoded _ 0x9 0 hop h⟩
  next hop => exact ⟨opcodeTable[9], List.getElem_mem _, row_selects_of_decoded _ 0xA 0 hop h⟩
  next => cases h

/-- A word that no row selects does not decode. -/
theorem decode_error_of_no_row {w : CmdWord} (h : ∀ r ∈ opcodeTable, r.selects w = false) :
    ∃ e, decode w = .error e := by
  cases hd : decode w with
  | error e => exact ⟨e, rfl⟩
  | ok i =>
    obtain ⟨r, hr, hsel⟩ := exists_row_selects_of_decode hd
    exact absurd hsel (by simp [h r hr])

namespace Machine

/-- A cycle with an undecodable word and no tick answers a failure, and takes in its ports (R71, R78). -/
theorem step_of_undecodable {s : State} {e : Illegal} (hrst : s.nextCycle.rst = false)
    (hcmd : s.nextCycle.cmdValid = true) (htick : s.nextCycle.tick = false) (hd : decode s.nextCycle.cmd = .error e) :
    step s = .next s.latch.failed :=
  step_eq_next.2 <| .inr ⟨hrst, s.latch.failed,
    runCommand_eq_next.2 (.inr (.inr ⟨hcmd, ⟨e, hd⟩, rfl⟩)), runTick_eq_next.2 (.inl ⟨htick, rfl⟩)⟩

/-! ### The level outputs -/

/-- Everything the output ports of a cycle can show (R70, R82): in a `rst` cycle no response and no line read, in any other
cycle the response and the lines as the command left them; the levels show the state before the events in both. -/
theorem State.outputs_eq_ok {s : State} {o : Outputs} : s.outputs = .ok o ↔
    (s.nextCycle.rst = true ∧ o =
      { rsp := none, lineEn := Vector.ofFn (s.lineEn false), lineSel := Vector.ofFn s.lineSel,
        active := s.active, done := s.done }) ∨
    (s.nextCycle.rst = false ∧ ∃ m, runCommand s.nextCycle s.latch = .next m ∧ o =
      { rsp := m.rsp.map Response.word, lineEn := Vector.ofFn (m.lineEn s.nextCycle.tick),
        lineSel := Vector.ofFn m.lineSel, active := s.active, done := s.done }) := by
  unfold State.outputs
  cases s.nextCycle.rst with
  | true => simp [eq_comm]
  | false => cases runCommand s.nextCycle s.latch <;> simp [eq_comm]

theorem State.outputs_levels {s : State} {o : Outputs} (h : s.outputs = .ok o) :
    o.active = s.active ∧ o.done = s.done := by
  rcases State.outputs_eq_ok.1 h with ⟨-, rfl⟩ | ⟨-, m, -, rfl⟩ <;> exact ⟨rfl, rfl⟩

/-- `active` is the code of `TRACING` (R29, R32). -/
theorem State.active_eq_code (s : State) : s.active = (s.state.code == 0b10) := by
  unfold State.active
  cases s.state <;> rfl

/-- `done` is the code of `DONE` (R29, R32). -/
theorem State.done_eq_code (s : State) : s.done = (s.state.code == 0b00) := by
  unfold State.done
  cases s.state <;> rfl

theorem boolData_eq_ite (b : Bool) : boolData b = if b then 1 else 0 := by
  cases b <;> rfl

/-- `ISACTIVE` as the first event of the cycle answers the level of the state before it. -/
theorem exec_isActive_latch (s : State) :
    exec .isActive s.latch = .next (s.latch.succeeded (if s.active then 1 else 0)) := by
  rw [← boolData_eq_ite]; rfl

/-- `ISDONE` as the first event of the cycle answers the level of the state before it. -/
theorem exec_isDone_latch (s : State) :
    exec .isDone s.latch = .next (s.latch.succeeded (if s.done then 1 else 0)) := by
  rw [← boolData_eq_ite]; rfl

/-! ### The statements -/

/-- Settles O4: a word that no row selects does not decode, and an undecodable word only answers a failure. -/
theorem illegalWordChangesNothing : Obligations.IllegalWordChangesNothing := by
  intro s hrst hcmd htick hrows
  obtain ⟨e, hd⟩ := decode_error_of_no_row hrows
  exact step_of_undecodable hrst hcmd htick hd

/-- Settles O12: both the ports and the two queries are functions of the session state before the cycle's events. -/
theorem levelOutputsEqualQueries : Obligations.LevelOutputsEqualQueries := by
  intro s o ho
  obtain ⟨hactive, hdone⟩ := State.outputs_levels ho
  rw [hactive, hdone]
  exact ⟨s.active_eq_code, s.done_eq_code, exec_isActive_latch s, exec_isDone_latch s, rfl, rfl⟩

end Machine
end Sys2Proof
end

section
/-! PROOFS. Family 40_configuration.md: `SETPERIOD` (R97), the period drives nothing (R98), `RESET` (R99). -/

namespace Sys2Proof.Machine

/-- A response of success is all that `succeeded` changes (R77). -/
theorem State.succeeded_eq (s : State) (d : BitVec 32) :
    s.succeeded d = { s with rsp := some { ok := true, data := d } } := rfl

theorem exec_setPeriod (period : BitVec 32) (s : State) :
    exec (.setPeriod period) s = .next (State.succeeded { s with period := period } 0) := rfl

theorem exec_reset (s : State) : exec .reset s = .next (s.clearConfiguration.succeeded 0) := rfl

/-! ### Another period: what the operations read of the state is the same -/

/-- The state with another sample period. -/
def State.withPeriod (s : State) (p : BitVec 32) : State := { s with period := p }

section
variable (s : State) (p : BitVec 32)

@[simp] theorem State.withPeriod_cursor : (s.withPeriod p).cursor = s.cursor := rfl
@[simp] theorem State.withPeriod_slot (j : Nat) : (s.withPeriod p).slot j = s.slot j := rfl
@[simp] theorem State.withPeriod_pack : (s.withPeriod p).pack = s.pack := rfl
@[simp] theorem State.withPeriod_oracleCalls : (s.withPeriod p).oracleCalls = s.oracleCalls := rfl

@[simp] theorem State.withPeriod_addTraceFailure (pin : Pin) :
    (s.withPeriod p).addTraceFailure pin = s.addTraceFailure pin := rfl

@[simp] theorem State.withPeriod_triggerTarget (pin : Pin) (edge : Edge) :
    (s.withPeriod p).triggerTarget pin edge = s.triggerTarget pin edge := rfl

@[simp] theorem State.withPeriod_rdSampleFailure (idx : BitVec 16) :
    (s.withPeriod p).rdSampleFailure idx = s.rdSampleFailure idx := rfl

/-! ### The updates carry the other period along -/

@[simp] theorem State.withPeriod_putSlot (i : Nat) (v : Byte) :
    (s.withPeriod p).putSlot i v = (s.putSlot i v).withPeriod p := rfl

@[simp] theorem State.withPeriod_succeeded (d : BitVec 32) :
    (s.withPeriod p).succeeded d = (s.succeeded d).withPeriod p := rfl

@[simp] theorem State.withPeriod_failed : (s.withPeriod p).failed = s.failed.withPeriod p := rfl

@[simp] theorem State.withPeriod_markConfiguration :
    (s.withPeriod p).markConfiguration = s.markConfiguration.withPeriod p := rfl

@[simp] theorem State.withPeriod_registerLine (pin : Pin) :
    (s.withPeriod p).registerLine pin = (s.registerLine pin).withPeriod p := by
  simp only [State.registerLine, apply_dite (State.withPeriod · p)]
  rfl

@[simp] theorem State.withPeriod_setTrigger (i : Fin 8) (b c : Bool) :
    (s.withPeriod p).setTrigger i b c = (s.setTrigger i b c).withPeriod p := rfl

@[simp] theorem State.withPeriod_advanceCursor :
    (s.withPeriod p).advanceCursor = s.advanceCursor.withPeriod p := rfl

@[simp] theorem State.withPeriod_recordReads (l : List LineRead) :
    (s.withPeriod p).recordReads l = (s.recordReads l).withPeriod p := rfl

@[simp] theorem windowShifted_withPeriod :
    windowShifted (s.withPeriod p) = (windowShifted s).withPeriod p := rfl

/-- The comparator looks at the mark, the masks and the window only (R115, R116). -/
@[simp] theorem State.withPeriod_evaluateTrigger :
    (s.withPeriod p).evaluateTrigger = s.evaluateTrigger.withPeriod p := by
  simp only [State.evaluateTrigger, apply_ite (State.withPeriod · p)]
  rfl

end

/-! ### The meanings -/

/-- From a state with another period the operation does the same and keeps that period. -/
def IgnoresPeriod (f : State → Result) : Prop :=
  ∀ {s t : State} (p : BitVec 32), f s = .next t → f (s.withPeriod p) = .next (t.withPeriod p)

theorem execAddTrace_ignoresPeriod (pin : Pin) : IgnoresPeriod (execAddTrace pin) := by
  intro s t p h
  unfold execAddTrace at h ⊢
  rw [State.withPeriod_addTraceFailure]
  cases hf : s.addTraceFailure pin with
  | none => rw [hf] at h; cases h; simp
  | some cause => rw [hf] at h; cases h; simp

theorem execAddTrig_ignoresPeriod (pin : Pin) (edge : Edge) : IgnoresPeriod (execAddTrig pin edge) := by
  intro s t p h
  unfold execAddTrig at h ⊢
  rw [State.withPeriod_triggerTarget]
  cases hf : s.triggerTarget pin edge with
  | ok target => rw [hf] at h; cases h; simp
  | error cause => rw [hf] at h; cases h; simp

theorem execRdSample_ignoresPeriod (idx : BitVec 16) : IgnoresPeriod (execRdSample idx) := by
  intro s t p h
  unfold execRdSample at h ⊢
  rw [State.withPeriod_rdSampleFailure]
  cases hf : s.rdSampleFailure idx with
  | none => rw [hf] at h; cases h; simp
  | some cause => rw [hf] at h; cases h; simp

/-- "A model must not make any rule of `TICK` depend on `period`" (R98): in each session state the tick's effect carries
the other period along. -/
theorem execTick_ignoresPeriod : IgnoresPeriod execTick := by
  intro s t p h
  rw [execTick_eq_next] at h ⊢
  rcases h with ⟨hs, hcap, rfl⟩ | ⟨hs, hcur, rfl⟩ | ⟨hs, rfl⟩
  · exact .inl ⟨hs, hcap, by simp⟩
  · exact .inr (.inl ⟨hs, hcur, by simp⟩)
  · exact .inr (.inr ⟨hs, rfl⟩)

/-- Every operation but the three that write or return the period ignores it (R98). -/
theorem exec_ignoresPeriod {i : Instr} (hrd : i ≠ .rdPeriod) (hreset : i ≠ .reset) (hset : ∀ q, i ≠ .setPeriod q) :
    IgnoresPeriod (exec i) := by
  intro s t p h
  cases i with
  | addTrace pin => exact execAddTrace_ignoresPeriod pin p h
  | addTrig pin edge => exact execAddTrig_ignoresPeriod pin edge p h
  | setPeriod q => exact absurd rfl (hset q)
  | reset => exact absurd rfl hreset
  | start => cases h; rfl
  | isActive => cases h; rfl
  | isDone => cases h; rfl
  | rdSample idx => exact execRdSample_ignoresPeriod idx p h
  | rdPeriod => exact absurd rfl hrd
  | rdCount => cases h; rfl
  | tick => exact execTick_ignoresPeriod p h

/-! ### The statements -/

/-- Settles O19: each operation commutes with a change of the period, `TICK` in every session state. -/
theorem periodDrivesNothing : Obligations.PeriodDrivesNothing :=
  fun _ _ p _ hrd hreset hset h => exec_ignoresPeriod hrd hreset hset p h

/-- Settles O16: `SETPERIOD` writes the period and answers success. -/
theorem setPeriodStores : Obligations.SetPeriodStores := by
  intro s period
  rw [exec_setPeriod, State.succeeded_eq]

/-- Settles O17: `RESET` clears the configuration and answers success. -/
theorem resetClearsConfiguration : Obligations.ResetClearsConfiguration := by
  intro s
  rw [exec_reset, State.succeeded_eq]
  rfl

end Sys2Proof.Machine
end

section
/-! PROOFS. Family 41_capture.md: `START` (R110), `TICK` in each session state (R113 to R120), the completion of a capture
(R119), the transition relation (R122), the status queries (R124, R125). -/

namespace Sys2Proof.Machine

/-! ### The commands of the capture session -/

theorem exec_start (s : State) : exec .start s = .next (s.arm.succeeded 0) := rfl

theorem exec_isActive (s : State) : exec .isActive s = .next (s.succeeded (boolData s.active)) := rfl

theorem exec_isDone (s : State) : exec .isDone s = .next (s.succeeded (boolData s.done)) := rfl

theorem boolData_active (s : State) : boolData s.active = if s.state = .tracing then 1 else 0 := by
  simp [boolData_eq_ite, State.active]

theorem boolData_done (s : State) : boolData s.done = if s.state = .done then 1 else 0 := by
  simp [boolData_eq_ite, State.done]

/-! ### A tick, by the state it finds -/

theorem exec_tick_of_waiting {s : State} (hs : s.state = .waitingForTrigger) (hcap : 1 < s.params.capacity) :
    exec .tick s = .next ((windowShifted s).evaluateTrigger.recordReads s.oracleCalls) :=
  execTick_eq_next.2 (.inl ⟨hs, hcap, rfl⟩)

theorem exec_tick_of_tracing {s : State} (hs : s.state = .tracing) (hcur : s.cursor < s.params.capacity) :
    exec .tick s = .next ((s.putSlot s.cursor s.pack).advanceCursor.recordReads s.oracleCalls) :=
  execTick_eq_next.2 (.inr (.inl ⟨hs, hcur, rfl⟩))

theorem exec_tick_of_done {s : State} (hs : s.state = .done) : exec .tick s = .next s :=
  execTick_eq_next.2 (.inr (.inr ⟨hs, rfl⟩))

/-- In `DONE` no line is enabled for reading, tick or not (R120). -/
theorem State.lineEn_of_done {s : State} (hs : s.state = .done) (tick : Bool) (i : Fin 8) : s.lineEn tick i = false := by
  simp [State.lineEn, State.working, hs]

/-- The comparator compares each expected byte with its masked sample (R116). -/
theorem trig_eq_true {en ep ec s0 s1 : Byte} : trig en ep ec s0 s1 = true ↔ ep = (en &&& s0) ∧ ec = (en &&& s1) := by
  simp [trig]

/-- The end of a waiting tick touches the mark and the session state alone (R114). -/
theorem State.evaluateTrigger_eq (s : State) :
    s.evaluateTrigger = { s with first := false, state := s.evaluateTrigger.state } := by
  have hmark := s.evaluateTrigger_first
  unfold State.evaluateTrigger at hmark ⊢
  split_ifs at hmark ⊢
  · rfl
  · rw [← hmark]
  · rw [← hmark]

/-- Where a tick's comparator leads: it is read on the shifted window, and not at all while the mark is set (R114, R115). -/
theorem evaluateTrigger_windowShifted_state (s : State) : (windowShifted s).evaluateTrigger.state =
    if s.first = false ∧ s.expectedPrev = (s.enabled &&& s.slot 1) ∧ s.expectedCur = (s.enabled &&& s.pack) then .tracing
    else s.state := by
  simp [State.evaluateTrigger_state, windowShifted_slot, trig_eq_true]

/-! ### What one operation makes of the session state -/

theorem execAddTrace_state {pin : Pin} {s t : State} (h : execAddTrace pin s = .next t) : t.state = s.state := by
  rcases execAddTrace_cases pin s with ⟨-, he⟩ | ⟨-, he⟩ <;> (rw [he] at h; cases h; simp)

theorem execAddTrig_state {pin : Pin} {edge : Edge} {s t : State} (h : execAddTrig pin edge s = .next t) :
    t.state = s.state := by
  rcases execAddTrig_cases pin edge s with ⟨-, he⟩ | ⟨i, p, c, -, -, he⟩ <;> (rw [he] at h; cases h; simp)

theorem execRdSample_state {idx : BitVec 16} {s t : State} (h : execRdSample idx s = .next t) : t.state = s.state := by
  rcases execRdSample_cases idx s with ⟨-, he⟩ | ⟨-, he⟩ <;> (rw [he] at h; cases h; simp)

/-- The commands that are not a capture event leave the session state (R122). -/
theorem exec_state_of_command {i : Instr} {s t : State} (hcmd : i.isCommand = true) (hstart : i ≠ .start)
    (hreset : i ≠ .reset) (h : exec i s = .next t) : t.state = s.state := by
  cases i with
  | addTrace pin => exact execAddTrace_state h
  | addTrig pin edge => exact execAddTrig_state h
  | rdSample idx => exact execRdSample_state h
  | start => exact absurd rfl hstart
  | reset => exact absurd rfl hreset
  | tick => cases hcmd
  | setPeriod | isActive | isDone | rdPeriod | rdCount => cases h; rfl

/-- The session state after a tick: from waiting to tracing when the window fires, to done at the last slot (R114, R118, R120). -/
theorem exec_tick_state {s t : State} (h : exec .tick s = .next t) : t.state =
    match s.state with
    | .done => .done
    | .waitingForTrigger =>
      if s.first = false ∧ s.expectedPrev = (s.enabled &&& s.slot 1) ∧ s.expectedCur = (s.enabled &&& s.pack) then .tracing
      else .waitingForTrigger
    | .tracing => if s.cursor + 1 = s.params.capacity then .done else .tracing := by
  rcases execTick_eq_next.1 h with ⟨hs, -, rfl⟩ | ⟨hs, -, rfl⟩ | ⟨hs, rfl⟩
  · rw [State.recordReads_state, evaluateTrigger_windowShifted_state, hs]
  · rw [State.recordReads_state, State.advanceCursor_state, State.putSlot_state, hs]; rfl
  · rw [hs]

theorem execWord_of_undecodable {w : CmdWord} {e : Illegal} (hd : decode w = .error e) (s : State) :
    execWord w s = .next s.failed := by
  simp [execWord, hd]

theorem step_of_rst {s : State} (hrst : s.nextCycle.rst = true) : step s = .next s.latch.hardwareReset :=
  step_eq_next.2 (.inl ⟨hrst, rfl⟩)

/-! ### Runs of ticks -/

theorem tickRun_succ_of {levels : Nat → Byte} {k : Nat} {s m : State} (h : tickRun levels k s = .next m) :
    tickRun levels (k + 1) s = exec .tick (m.presentLines (levels (k + 1))) := by
  rw [tickRun, h, andThen_next]

/-- While the cursor stays inside the store, `k` ticks move it on by `k` and the capture goes on (R118). -/
theorem tickRun_of_tracing (levels : Nat → Byte) {s : State} (hs : s.state = .tracing) (k : Nat)
    (hk : s.cursor + k < s.params.capacity) : ∃ t, tickRun levels k s = .next t ∧ t.state = .tracing ∧
      t.cursor = s.cursor + k ∧ t.params = s.params ∧ t.count = s.count := by
  induction k with
  | zero => exact ⟨s, rfl, hs, rfl, rfl, rfl⟩
  | succ k ih =>
    obtain ⟨m, hm, hstate, hcursor, hparams, hcount⟩ := ih (by omega)
    have hinside : m.cursor + 1 < m.params.capacity := by rw [hcursor, hparams]; omega
    refine ⟨_, (tickRun_succ_of hm).trans (exec_tick_of_tracing hstate (Nat.lt_of_succ_lt hinside)), ?_, ?_, hparams, hcount⟩
    · simp [hinside.ne, hstate]
    · simp [hcursor, Nat.add_assoc]

/-- The tick that brings the cursor to `N` fills the last slot and ends the capture (R119). -/
theorem tickRun_completes (levels : Nat → Byte) {s : State} (hs : s.state = .tracing) (k : Nat)
    (hk : s.cursor + k + 1 = s.params.capacity) : ∃ u, tickRun levels (k + 1) s = .next u ∧ u.state = .done ∧
      u.cursor = s.params.capacity ∧ u.slot (s.params.capacity - 1) = s.sample (levels (k + 1)) := by
  obtain ⟨m, hm, hstate, hcursor, hparams, hcount⟩ := tickRun_of_tracing levels hs k (by omega)
  have hlast : m.cursor + 1 = m.params.capacity := by rw [hcursor, hparams, hk]
  have hslot : s.params.capacity - 1 = m.cursor := by omega
  refine ⟨_, (tickRun_succ_of hm).trans (exec_tick_of_tracing hstate (Nat.lt_of_succ_le hlast.le)), ?_, ?_, ?_⟩
  · simp [hlast]
  · simp [hlast, hparams]
  · simp [hslot, State.putSlot_slot, State.sample, hcount]

/-- Once a run of ticks is in `DONE`, further ticks change nothing but the answers on the ports (R120). -/
theorem tickRun_after_done {levels : Nat → Byte} {n : Nat} {s u : State} (h : tickRun levels n s = .next u)
    (hu : u.state = .done) (k : Nat) :
    ∃ t, tickRun levels (n + k) s = .next t ∧ t = { u with lineVal := t.lineVal } := by
  induction k with
  | zero => exact ⟨u, h, rfl⟩
  | succ k ih =>
    obtain ⟨m, hm, hmu⟩ := ih
    have hdone : m.state = .done := by rw [hmu]; exact hu
    refine ⟨_, (tickRun_succ_of hm).trans (exec_tick_of_done hdone), ?_⟩
    rw [hmu]; rfl

/-! ### The statements -/

/-- Settles O24: the two writes of the window shift, then the comparator on the window they leave. -/
theorem tickWaiting_holds : Obligations.TickWaiting := by
  intro s hs hcap
  have hstate := evaluateTrigger_windowShifted_state s
  rw [hs] at hstate
  refine ⟨_, exec_tick_of_waiting hs hcap, ?_, ?_, ?_, ?_, ?_, ?_⟩
  · simp [windowShifted_slot]
  · simp [windowShifted_slot]
  · intro j hj
    simp [windowShifted_slot, show j ≠ 1 by omega, show j ≠ 0 by omega]
  · simp [hstate]
  · rw [State.recordReads_state, hstate]
    split_ifs <;> simp
  · rw [State.evaluateTrigger_eq]; rfl

/-- Settles O25: one write at the cursor, then the cursor's advance. -/
theorem tickTracing_holds : Obligations.TickTracing := by
  intro s hs hcur
  refine ⟨_, exec_tick_of_tracing hs hcur, ?_, ?_, ?_⟩
  · simp [State.putSlot_slot]
  · intro j hj
    simp [State.putSlot_slot, hj]
  · rw [← hs]; rfl

/-- Settles O30: the cursor counts the ticks from 2 up to `N`, and in `DONE` a tick does nothing. -/
theorem completionTakesCapacityLessTwo : Obligations.CompletionTakesCapacityLessTwo := by
  intro s levels hs hcur hcap
  constructor
  · intro k hk
    obtain ⟨t, ht, hstate, hcursor, -, -⟩ := tickRun_of_tracing levels hs k (by omega)
    exact ⟨t, ht, hstate, by omega⟩
  · obtain ⟨u, hu, hstate, hcursor, hslot⟩ := tickRun_completes levels hs (s.params.capacity - 3) (by omega)
    have hticks : s.params.capacity - 3 + 1 = s.params.capacity - 2 := by omega
    rw [hticks] at hu hslot
    exact ⟨u, hu, hstate, hcursor, hslot, tickRun_after_done hu hstate⟩

/-- Settles O41: by the operation, the tick by the state it finds; an illegal word fails and a hardware reset is done. -/
theorem transitionRelation : Obligations.TransitionRelation := by
  refine ⟨?_, ?_, ?_⟩
  · intro s t i h
    cases i with
    | start => cases h; rfl
    | reset => cases h; rfl
    | tick => exact exec_tick_state h
    | addTrace | addTrig | setPeriod | isActive | isDone | rdSample | rdPeriod | rdCount =>
      exact exec_state_of_command rfl (by simp) (by simp) h
  · intro s w hrows
    obtain ⟨e, hd⟩ := decode_error_of_no_row hrows
    exact ⟨_, execWord_of_undecodable hd s, rfl⟩
  · intro s hrst
    exact ⟨_, step_of_rst hrst, rfl⟩

/-- Settles O22: what `START` writes, read back slot by slot. -/
theorem startArms : Obligations.StartArms := by
  intro s
  exact ⟨_, exec_start s, fun j hj => s.slot_arm hj, rfl⟩

/-- Settles O26: in `DONE` a tick does nothing, and the engine is not working. -/
theorem tickDoneIsNoOp : Obligations.TickDoneIsNoOp := by
  intro s hs
  exact ⟨exec_tick_of_done hs, State.lineEn_of_done hs⟩

/-- Settles O35: each query answers its level. -/
theorem statusQueries : Obligations.StatusQueries := by
  intro s
  rw [exec_isActive, exec_isDone, boolData_active, boolData_done, State.succeeded_eq, State.succeeded_eq]
  exact ⟨rfl, rfl⟩

end Sys2Proof.Machine
end

section
/-! PROOFS. Family 42_reporting.md: the read-out operations (R140 to R142) and the shape of the report (R144). -/

namespace Sys2Proof.Machine

/-! ### The read-out operations -/

theorem exec_rdSample_of_lt {idx : BitVec 16} {s : State} (h : idx.toNat < s.params.capacity) :
    exec (.rdSample idx) s = .next (s.succeeded ((s.slot idx.toNat).setWidth 32)) := by
  rcases execRdSample_cases idx s with ⟨hge, -⟩ | ⟨-, he⟩
  · omega
  · exact he

theorem exec_rdSample_of_ge {idx : BitVec 16} {s : State} (h : s.params.capacity ≤ idx.toNat) :
    exec (.rdSample idx) s = .next s.failed := by
  rcases execRdSample_cases idx s with ⟨-, he⟩ | ⟨hlt, -⟩
  · exact he
  · omega

theorem exec_rdPeriod (s : State) : exec .rdPeriod s = .next (s.succeeded s.period) := rfl

theorem exec_rdCount (s : State) : exec .rdCount s = .next (s.succeeded (BitVec.ofNat 32 s.count.val)) := rfl

/-- A response of failure is all that `failed` changes (R77, R150). -/
theorem State.failed_eq (s : State) : s.failed = { s with rsp := some { ok := false, data := 0 } } := rfl

/-! ### The report -/

/-- Row `i` of the report: the digits of bit position `i`, slot by slot (R144). -/
def State.reportRow (s : State) (i : Nat) : List Nat := (List.range s.params.capacity).map (s.digit i)

theorem State.report_rows (s : State) : s.report.rows = (List.range s.count.val).map s.reportRow := rfl

/-- A digit is the bit as a number (R143). -/
theorem State.digit_eq_ite (s : State) (i j : Nat) : s.digit i j = if (s.slot j).getLsbD i then 1 else 0 := by
  unfold State.digit
  cases (s.slot j).getLsbD i <;> rfl

@[simp] theorem State.length_reportRow (s : State) (i : Nat) : (s.reportRow i).length = s.params.capacity := by
  simp [State.reportRow]

theorem State.getElem?_reportRow (s : State) (i : Nat) {j : Nat} (hj : j < s.params.capacity) :
    (s.reportRow i)[j]? = some (s.digit i j) := by
  simp [State.reportRow, hj]

@[simp] theorem State.length_report_rows (s : State) : s.report.rows.length = s.count.val := by
  simp [State.report_rows]

theorem State.getElem?_report_rows (s : State) {i : Nat} (hi : i < s.count.val) :
    s.report.rows[i]? = some (s.reportRow i) := by
  simp [State.report_rows, hi]

theorem State.mem_report_rows {s : State} {row : List Nat} :
    row ∈ s.report.rows ↔ ∃ i, i < s.count.val ∧ s.reportRow i = row := by
  simp [State.report_rows]

/-- The report reads the period, the capacity, the count and the slots, and no part of the trigger mask (R144). -/
theorem State.report_with_triggerMask (s : State) (en ep ec : Byte) :
    State.report { s with enabled := en, expectedPrev := ep, expectedCur := ec } = s.report := rfl

/-! ### The statements -/

/-- Settles O38: row `i` is `reportRow i`, whose entry `j` is digit `(i, j)`. -/
theorem reportShape : Obligations.ReportShape := by
  intro s
  refine ⟨rfl, rfl, s.length_report_rows, ?_, ?_, s.report_with_triggerMask⟩
  · intro row hrow
    obtain ⟨i, -, rfl⟩ := State.mem_report_rows.1 hrow
    exact s.length_reportRow i
  · intro i j hi hj
    refine ⟨s.reportRow i, s.getElem?_report_rows hi, ?_⟩
    rw [s.getElem?_reportRow i hj, s.digit_eq_ite]

/-- Settles O36: by the index, inside the store or not. -/
theorem readSample : Obligations.ReadSample := by
  intro s idx
  constructor
  · intro hlt
    rw [exec_rdSample_of_lt hlt, State.succeeded_eq]
  · intro hge
    rw [exec_rdSample_of_ge hge, State.failed_eq]

/-- Settles O37: each read answers its register. -/
theorem readRegisters : Obligations.ReadRegisters := by
  intro s
  rw [exec_rdPeriod, exec_rdCount, State.succeeded_eq, State.succeeded_eq]
  exact ⟨rfl, rfl⟩

end Sys2Proof.Machine
end

section
/-! PROOFS. Family 60_exceptions.md: what a failed operation leaves (R150), and the causes of failure (R151). -/

namespace Sys2Proof.Machine

/-! ### The causes of failure -/

/-- The causes of failure of R151, by the operation: F1 and F2, F3 and F4, F5; no other operation has one. -/
def State.FailsOn (s : State) : Instr → Prop
  | .addTrace pin => pin.toNat < s.params.pinMin ∨ s.params.pinMax < pin.toNat ∨ s.count.val = 8
  | .addTrig pin edge => (∀ k : Fin 8, k.val < s.count.val → s.trace[k] ≠ pin) ∨ ∃ b, edge = .unrecognised b
  | .rdSample idx => s.params.capacity ≤ idx.toNat
  | .setPeriod _ | .reset | .start | .isActive | .isDone | .rdPeriod | .rdCount | .tick => False

/-- The causes as one list over all operations. -/
theorem State.failsOn_iff {s : State} {i : Instr} : s.FailsOn i ↔
    (∃ pin, i = .addTrace pin ∧ (pin.toNat < s.params.pinMin ∨ s.params.pinMax < pin.toNat ∨ s.count.val = 8)) ∨
    (∃ pin edge, i = .addTrig pin edge ∧
      ((∀ k : Fin 8, k.val < s.count.val → s.trace[k] ≠ pin) ∨ ∃ b, edge = .unrecognised b)) ∨
    (∃ idx, i = .rdSample idx ∧ s.params.capacity ≤ idx.toNat) := by
  cases i <;> simp [State.FailsOn]

/-- Exactly the edge codes 4 to 7 have no entry in the edge table (R76, R94). -/
theorem edgeBits_eq_none {edge : Edge} : edgeBits edge = none ↔ ∃ b, edge = .unrecognised b := by
  cases edge <;> simp [edgeBits]

theorem State.failsOn_addTrace {s : State} {pin : Pin} : s.FailsOn (.addTrace pin) ↔ s.addTraceFailure pin ≠ none := by
  have hcount := s.count.isLt
  rw [ne_eq, State.addTraceFailure_eq_none]
  simp only [State.FailsOn]
  omega

theorem State.failsOn_addTrig {s : State} {pin : Pin} {edge : Edge} :
    s.FailsOn (.addTrig pin edge) ↔ s.firstPosition pin = none ∨ edgeBits edge = none := by
  rw [State.firstPosition_eq_none, edgeBits_eq_none]
  exact Iff.rfl

/-! ### How a command ends -/

/-- The operation answers: on a cause of failure, the failure with every field but the mark and the response as before;
on no cause, a success. -/
def State.Answers (s : State) (i : Instr) : Prop :=
  (s.FailsOn i ∧ ∃ v, exec i s = .next (State.failed { s with violated := v })) ∨
  (¬ s.FailsOn i ∧ ∃ m d, exec i s = .next (State.succeeded m d))

theorem addTrace_answers (s : State) (pin : Pin) : s.Answers (.addTrace pin) := by
  rcases execAddTrace_cases pin s with ⟨hcause, he⟩ | ⟨hnone, he⟩
  · exact .inl ⟨State.failsOn_addTrace.2 hcause, _, he⟩
  · exact .inr ⟨fun hf => State.failsOn_addTrace.1 hf hnone, _, _, he⟩

theorem addTrig_answers (s : State) (pin : Pin) (edge : Edge) : s.Answers (.addTrig pin edge) := by
  rcases execAddTrig_cases pin edge s with ⟨hcause, he⟩ | ⟨k, p, c, hpos, hbits, he⟩
  · exact .inl ⟨State.failsOn_addTrig.2 hcause, _, he⟩
  · exact .inr ⟨by simp [State.failsOn_addTrig, hpos, hbits], _, _, he⟩

theorem rdSample_answers (s : State) (idx : BitVec 16) : s.Answers (.rdSample idx) := by
  rcases execRdSample_cases idx s with ⟨hge, he⟩ | ⟨hlt, he⟩
  · exact .inl ⟨hge, s.violated, he⟩
  · exact .inr ⟨Nat.not_le.2 hlt, _, _, he⟩

/-- Every command answers, and fails exactly on its causes (R150, R151). -/
theorem command_answers (s : State) {i : Instr} (hcmd : i.isCommand = true) : s.Answers i := by
  cases i with
  | addTrace pin => exact addTrace_answers s pin
  | addTrig pin edge => exact addTrig_answers s pin edge
  | rdSample idx => exact rdSample_answers s idx
  | tick => cases hcmd
  | setPeriod | reset | start | isActive | isDone | rdPeriod | rdCount => exact .inr ⟨not_false, _, _, rfl⟩

/-! ### The tick -/

/-- A tick drives no response (R71). -/
theorem exec_tick_rsp {s t : State} (h : exec .tick s = .next t) : t.rsp = s.rsp := by
  rcases execTick_eq_next.1 h with ⟨-, -, rfl⟩ | ⟨-, -, rfl⟩ | ⟨-, rfl⟩ <;> simp

/-- In the invariant the slots a tick writes exist: the window by the least capacity (R8), the cursor by R38 item 5. -/
theorem exec_tick_completes {s : State} (hinv : s.Inv) : ∃ t, exec .tick s = .next t := by
  cases hs : s.state with
  | done => exact ⟨_, exec_tick_of_done hs⟩
  | waitingForTrigger =>
    have hcap := hinv.params_valid.1
    exact ⟨_, exec_tick_of_waiting hs (by omega)⟩
  | tracing => exact ⟨_, exec_tick_of_tracing hs (hinv.cursor_tracing hs).2⟩

/-! ### The statements -/

/-- Settles O42: a command that fails ends in `failed` on a state with another mark, and no other command answers `ok = 0`. -/
theorem failureChangesNothing : Obligations.FailureChangesNothing := by
  intro s t i r hcmd he hr hok
  rcases command_answers s hcmd with ⟨-, v, he'⟩ | ⟨-, m, d, he'⟩ <;> (rw [he'] at he; cases he; cases hr)
  · exact ⟨rfl, rfl⟩
  · cases hok

/-- Settles O43: the commands by how they end, an illegal word by the decoder, a tick by the invariant. -/
theorem failuresAreExactlyTheCauses : Obligations.FailuresAreExactlyTheCauses := by
  refine ⟨fun s i hcmd => ?_, fun s w hrows => ?_, fun s hinv => ?_⟩
  · rw [← State.failsOn_iff]
    rcases command_answers s hcmd with ⟨hcause, v, he⟩ | ⟨hnone, m, d, he⟩
    · exact ⟨_, .fail, he, rfl, iff_of_true rfl hcause⟩
    · exact ⟨_, .okData d, he, rfl, iff_of_false Bool.noConfusion hnone⟩
  · obtain ⟨e, hd⟩ := decode_error_of_no_row hrows
    exact ⟨_, execWord_of_undecodable hd s, rfl⟩
  · obtain ⟨t, he⟩ := exec_tick_completes hinv
    exact ⟨t, he, exec_tick_rsp he⟩

end Sys2Proof.Machine
end

section
/-! PROOFS. Everything one operation can do (R7), as one inversion rule: the later parts argue by its outcomes. -/

namespace Sys2Proof.Machine

/-! ### The queries -/

/-- What a query answers (R124, R125, R140 to R142); the other operations are not queries. -/
def State.queryResponse (s : State) : Instr → Option Response
  | .isActive => some (.okData (boolData s.active))
  | .isDone => some (.okData (boolData s.done))
  | .rdSample idx =>
    some (if idx.toNat < s.params.capacity then .okData ((s.slot idx.toNat).setWidth 32) else .fail)
  | .rdPeriod => some (.okData s.period)
  | .rdCount => some (.okData (BitVec.ofNat 32 s.count.val))
  | .addTrace _ | .addTrig _ _ | .setPeriod _ | .reset | .start | .tick => none

/-- A query gives its answer and does nothing else. -/
theorem exec_query {s : State} {i : Instr} {r : Response} (h : s.queryResponse i = some r) :
    exec i s = .next (s.reply r) := by
  cases i with
  | rdSample idx =>
    simp only [State.queryResponse, Option.some.injEq] at h
    subst h
    split_ifs with hidx
    · exact exec_rdSample_of_lt hidx
    · exact exec_rdSample_of_ge (Nat.le_of_not_lt hidx)
  | isActive | isDone | rdPeriod | rdCount => cases h; rfl
  | addTrace | addTrig | setPeriod | reset | start | tick => cases h

/-! ### The updates whose form depends on a test -/

/-- The state with the line at the next position of a table that is not full (R90). -/
def State.addLine (s : State) (pin : Pin) (h : s.count.val < 8) : State :=
  { s with trace := s.trace.set s.count.val pin h, count := ⟨s.count.val + 1, by omega⟩ }

theorem State.registerLine_eq_addLine (s : State) (pin : Pin) (h : s.count.val < 8) :
    s.registerLine pin = s.addLine pin h := by
  rw [State.registerLine, dif_pos h]
  rfl

theorem State.addLine_trace (s : State) (pin : Pin) (h : s.count.val < 8) (i : Fin 8) :
    (s.addLine pin h).trace[i] = if i.val = s.count.val then pin else s.trace[i] := by
  rw [← s.registerLine_eq_addLine pin h, s.registerLine_trace pin h]

theorem State.addLine_count (s : State) (pin : Pin) (h : s.count.val < 8) :
    (s.addLine pin h).count.val = s.count.val + 1 := rfl

/-- The state after a `WAITING_FOR_TRIGGER` tick (R114). -/
def State.waitingTicked (s : State) : State :=
  { windowShifted s with
    first := false
    state :=
      if s.first = false ∧ s.expectedPrev = (s.enabled &&& s.slot 1) ∧ s.expectedCur = (s.enabled &&& s.pack) then .tracing
      else s.state
    lineReads := s.oracleCalls }

@[simp] theorem State.waitingTicked_trace (s : State) : s.waitingTicked.trace = s.trace := rfl
@[simp] theorem State.waitingTicked_count (s : State) : s.waitingTicked.count = s.count := rfl
@[simp] theorem State.waitingTicked_enabled (s : State) : s.waitingTicked.enabled = s.enabled := rfl
@[simp] theorem State.waitingTicked_expectedPrev (s : State) : s.waitingTicked.expectedPrev = s.expectedPrev := rfl
@[simp] theorem State.waitingTicked_expectedCur (s : State) : s.waitingTicked.expectedCur = s.expectedCur := rfl
@[simp] theorem State.waitingTicked_cursor (s : State) : s.waitingTicked.cursor = s.cursor := rfl
@[simp] theorem State.waitingTicked_period (s : State) : s.waitingTicked.period = s.period := rfl
@[simp] theorem State.waitingTicked_lineVal (s : State) : s.waitingTicked.lineVal = s.lineVal := rfl
@[simp] theorem State.waitingTicked_rsp (s : State) : s.waitingTicked.rsp = s.rsp := rfl
@[simp] theorem State.waitingTicked_inputs (s : State) : s.waitingTicked.inputs = s.inputs := rfl
@[simp] theorem State.waitingTicked_violated (s : State) : s.waitingTicked.violated = s.violated := rfl
@[simp] theorem State.waitingTicked_params (s : State) : s.waitingTicked.params = s.params := rfl
@[simp] theorem State.waitingTicked_epoch (s : State) : s.waitingTicked.epoch = s.epoch := rfl
@[simp] theorem State.waitingTicked_first (s : State) : s.waitingTicked.first = false := rfl
@[simp] theorem State.waitingTicked_lineReads (s : State) : s.waitingTicked.lineReads = s.oracleCalls := rfl

theorem State.waitingTicked_slot (s : State) (j : Nat) : s.waitingTicked.slot j =
    if j = 1 then s.pack else if j = 0 then s.slot 1 else s.slot j :=
  windowShifted_slot s j

/-- The comparator on the shifted window makes the state after a waiting tick. -/
theorem evaluateTrigger_eq_waitingTicked (s : State) :
    (windowShifted s).evaluateTrigger.recordReads s.oracleCalls = s.waitingTicked := by
  rw [State.evaluateTrigger_eq, evaluateTrigger_windowShifted_state]
  rfl

/-! ### The outcomes -/

/-- `s.Effect i t`: operation `i` on `s` may answer `t`, by the outcomes of the chapters on configuration (R90 to R99),
capture (R110 to R120) and read-out (R124, R125, R140 to R142). -/
inductive State.Effect (s : State) : Instr → State → Prop
  | addTraceFails (pin : Pin) (h : s.addTraceFailure pin ≠ none) : s.Effect (.addTrace pin) s.markConfiguration.failed
  | addTrace (pin : Pin) (hpin : s.params.pinMin ≤ pin.toNat ∧ pin.toNat ≤ s.params.pinMax) (hcount : s.count.val < 8) :
    s.Effect (.addTrace pin) ((s.markConfiguration.addLine pin hcount).succeeded 0)
  | addTrigFails (pin : Pin) (edge : Edge) (h : s.firstPosition pin = none ∨ edgeBits edge = none) :
    s.Effect (.addTrig pin edge) s.markConfiguration.failed
  | addTrig (pin : Pin) (edge : Edge) (i : Fin 8) (p c : Bool) (hpos : s.firstPosition pin = some i)
    (hedge : edgeBits edge = some (p, c)) :
    s.Effect (.addTrig pin edge) ((s.markConfiguration.setTrigger i p c).succeeded 0)
  | setPeriod (period : BitVec 32) : s.Effect (.setPeriod period) ((s.withPeriod period).succeeded 0)
  | reset : s.Effect .reset (s.clearConfiguration.succeeded 0)
  | start : s.Effect .start (s.arm.succeeded 0)
  | query (i : Instr) (r : Response) (h : s.queryResponse i = some r) : s.Effect i (s.reply r)
  | tickWaiting (hs : s.state = .waitingForTrigger) (hcap : 1 < s.params.capacity) :
    s.Effect .tick s.waitingTicked
  | tickTracing (hs : s.state = .tracing) (hcur : s.cursor < s.params.capacity) :
    s.Effect .tick ((s.putSlot s.cursor s.pack).advanceCursor.recordReads s.oracleCalls)
  | tickDone (hs : s.state = .done) : s.Effect .tick s

theorem exec_addTrace_of_cause {s : State} {pin : Pin} (h : s.addTraceFailure pin ≠ none) :
    exec (.addTrace pin) s = .next s.markConfiguration.failed := by
  rcases execAddTrace_cases pin s with ⟨-, he⟩ | ⟨hnone, -⟩
  · exact he
  · exact absurd hnone h

theorem exec_addTrace_of_room {s : State} {pin : Pin} (hpin : s.params.pinMin ≤ pin.toNat ∧ pin.toNat ≤ s.params.pinMax)
    (hcount : s.count.val < 8) :
    exec (.addTrace pin) s = .next ((s.markConfiguration.addLine pin hcount).succeeded 0) := by
  rw [← s.markConfiguration.registerLine_eq_addLine pin hcount]
  rcases execAddTrace_cases pin s with ⟨hcause, -⟩ | ⟨-, he⟩
  · exact absurd ((s.addTraceFailure_eq_none pin).2 ⟨hpin, hcount⟩) hcause
  · exact he

theorem exec_addTrig_of_target {s : State} {pin : Pin} {edge : Edge} {i : Fin 8} {p c : Bool}
    (hpos : s.firstPosition pin = some i) (hedge : edgeBits edge = some (p, c)) :
    exec (.addTrig pin edge) s = .next ((s.markConfiguration.setTrigger i p c).succeeded 0) := by
  have htarget := (s.triggerTarget_eq_ok pin edge i p c).2 ⟨hpos, hedge⟩
  simp only [exec, execAddTrig, htarget]

theorem exec_addTrig_of_cause {s : State} {pin : Pin} {edge : Edge} (h : s.firstPosition pin = none ∨ edgeBits edge = none) :
    exec (.addTrig pin edge) s = .next s.markConfiguration.failed := by
  rcases execAddTrig_cases pin edge s with ⟨-, he⟩ | ⟨i, p, c, hpos, hedge, -⟩
  · exact he
  · rcases h with h | h
    · simp [hpos] at h
    · simp [hedge] at h

/-- Each outcome is what `exec` answers. -/
theorem State.Effect.exec_eq {s t : State} {i : Instr} (h : s.Effect i t) : exec i s = .next t := by
  cases h with
  | addTraceFails pin h => exact exec_addTrace_of_cause h
  | addTrace pin hpin hcount => exact exec_addTrace_of_room hpin hcount
  | addTrigFails pin edge h => exact exec_addTrig_of_cause h
  | addTrig pin edge k p c hpos hedge => exact exec_addTrig_of_target hpos hedge
  | setPeriod | reset | start => rfl
  | query i r h => exact exec_query h
  | tickWaiting hs hcap => exact (exec_tick_of_waiting hs hcap).trans (by rw [evaluateTrigger_eq_waitingTicked])
  | tickTracing hs hcur => exact exec_tick_of_tracing hs hcur
  | tickDone hs => exact exec_tick_of_done hs

/-- A query has its outcome. -/
theorem State.Effect.of_query {s t : State} {i : Instr} {r : Response} (hr : s.queryResponse i = some r)
    (h : exec i s = .next t) : s.Effect i t := by
  rw [exec_query hr] at h
  cases h
  exact .query i r hr

/-- Every operation has one of these outcomes. -/
theorem State.effect_of_exec {s t : State} {i : Instr} (h : exec i s = .next t) : s.Effect i t := by
  cases i with
  | addTrace pin =>
    rcases execAddTrace_cases pin s with ⟨hcause, he⟩ | ⟨hnone, he⟩ <;> cases he.symm.trans h
    · exact .addTraceFails pin hcause
    · obtain ⟨hpin, hcount⟩ := (s.addTraceFailure_eq_none pin).1 hnone
      rw [s.markConfiguration.registerLine_eq_addLine pin hcount]
      exact .addTrace pin hpin hcount
  | addTrig pin edge =>
    rcases execAddTrig_cases pin edge s with ⟨hcause, he⟩ | ⟨k, p, c, hpos, hedge, he⟩ <;> cases he.symm.trans h
    · exact .addTrigFails pin edge hcause
    · exact .addTrig pin edge k p c hpos hedge
  | setPeriod period => cases h; exact .setPeriod period
  | reset => cases h; exact .reset
  | start => cases h; exact .start
  | isActive | isDone | rdSample | rdPeriod | rdCount => exact .of_query rfl h
  | tick =>
    rcases execTick_eq_next.1 h with ⟨hs, hcap, rfl⟩ | ⟨hs, hcur, rfl⟩ | ⟨hs, rfl⟩
    · rw [evaluateTrigger_eq_waitingTicked]
      exact .tickWaiting hs hcap
    · exact .tickTracing hs hcur
    · exact .tickDone hs

/-- A command always completes. -/
theorem exec_command_completes (s : State) {i : Instr} (hcmd : i.isCommand = true) : ∃ t, exec i s = .next t := by
  rcases command_answers s hcmd with ⟨-, v, he⟩ | ⟨-, m, d, he⟩ <;> exact ⟨_, he⟩

end Sys2Proof.Machine
end

section
/-! PROOFS. The invariants of the reachable states (R26, R38, R96): each is kept by every update an operation makes, so by
every operation, so by every step. -/

namespace Sys2Proof.Machine

/-! ### What the invariants do not speak of -/

/-- The two states differ at most in elements that no invariant speaks of: the mark, the period, the ports, the schedule
and the protocol mark. -/
def State.SameEngine (s t : State) : Prop :=
  t = { s with
    first := t.first, period := t.period, lineVal := t.lineVal, rsp := t.rsp, lineReads := t.lineReads
    inputs := t.inputs, violated := t.violated }

theorem State.sameEngine_reply (s : State) (r : Response) : s.SameEngine (s.reply r) := rfl
theorem State.sameEngine_markConfiguration_failed (s : State) : s.SameEngine s.markConfiguration.failed := rfl
theorem State.sameEngine_markConfiguration (s : State) : s.SameEngine s.markConfiguration := rfl
theorem State.sameEngine_withPeriod (s : State) (p : BitVec 32) : s.SameEngine (s.withPeriod p) := rfl
theorem State.sameEngine_latch (s : State) : s.SameEngine s.latch := rfl
theorem State.sameEngine_present (s : State) (c : Cycle) : s.SameEngine (s.present c) := rfl

theorem State.Inv.of_sameEngine {s t : State} (h : s.Inv) (e : s.SameEngine t) : t.Inv := by
  rw [e]
  exact ⟨h.params_valid, ⟨h.mask.prev_within, h.mask.cur_within, h.mask.enabled_registered⟩, h.cursor_waiting,
    h.cursor_tracing, h.cursor_done, h.store_specified, h.trace_in_range, h.store_canonical, h.store_in_range,
    h.unwritten_waiting, h.unwritten_tracing⟩

theorem State.FirstPositionsEnabled.of_sameEngine {s t : State} (h : s.FirstPositionsEnabled) (e : s.SameEngine t) :
    t.FirstPositionsEnabled := by
  rw [e]; exact h

theorem State.SamplesWithinCount.of_sameEngine {s t : State} (h : s.SamplesWithinCount) (e : s.SameEngine t) :
    t.SamplesWithinCount := by
  rw [e]; exact h

/-! ### From the operations to the steps -/

theorem Cycle.command_of_decode {c : Cycle} {i : Instr} (hrst : c.rst = false) (hvalid : c.cmdValid = true)
    (hd : decode c.cmd = .ok i) : c.command = some i := by
  simp [Cycle.command, hrst, hvalid, hd]

/-- What the ports, a hardware reset, an illegal word and the cycle's own operations keep, a step keeps (R71). -/
theorem step_preserves {P : State → Prop} {s t : State} (hlatch : P s.latch)
    (hreset : P s.latch.hardwareReset) (hfailed : ∀ u, P u → P u.failed)
    (hexec : ∀ i u v, i = .tick ∨ s.nextCycle.command = some i → P u → exec i u = .next v → P v)
    (h : step s = .next t) : P t := by
  rcases step_eq_next.1 h with ⟨-, rfl⟩ | ⟨hrst, m, hm, ht⟩
  · exact hreset
  · have hPm : P m := by
      rcases runCommand_eq_next.1 hm with ⟨-, rfl⟩ | ⟨hvalid, i, hd, he⟩ | ⟨-, -, rfl⟩
      · exact hlatch
      · exact hexec i _ _ (.inr (Cycle.command_of_decode hrst hvalid hd)) hlatch he
      · exact hfailed _ hlatch
    rcases runTick_eq_next.1 ht with ⟨-, rfl⟩ | ⟨-, he⟩
    · exact hPm
    · exact hexec .tick _ _ (.inl rfl) hPm he

/-! ### The trigger mask -/

/-- A byte lies within a mask when each of its bits does. -/
theorem within_iff {e en : Byte} :
    e &&& ~~~en = 0 ↔ ∀ i : Fin 8, e.getLsbD i = true → en.getLsbD i = true := by
  constructor
  · intro h i he
    have hbit := congrArg (BitVec.getLsbD · i.val) h
    simpa [he] using hbit
  · intro h
    apply BitVec.eq_of_getLsbD_eq
    intro j hj
    have hbit := h ⟨j, hj⟩
    rw [BitVec.getLsbD_and, BitVec.getLsbD_not, BitVec.ofNat_eq_ofNat, BitVec.getLsbD_zero]
    cases he : e.getLsbD j with
    | false => rfl
    | true => rw [hbit he]; simp

/-- A byte stays within the mask when a bit is assigned that the mask gets too (R93). -/
theorem within_assignBit {e en : Byte} (h : e &&& ~~~en = 0) (i : Fin 8) (b : Bool) :
    assignBit e i b &&& ~~~assignBit en i true = 0 := by
  rw [within_iff] at h ⊢
  intro k hk
  rw [getLsbD_assignBit _ _ _ _ k.isLt] at hk ⊢
  split_ifs at hk ⊢ with hki
  · rfl
  · exact h k hk

/-- Assigning the bit of a registered position keeps the mask invariant (R26, R93). -/
theorem State.MaskInv.setTrigger {s : State} (h : s.MaskInv) {i : Fin 8} (hi : i.val < s.count.val) (p c : Bool) :
    (s.setTrigger i p c).MaskInv where
  prev_within := within_assignBit h.prev_within i p
  cur_within := within_assignBit h.cur_within i c
  enabled_registered k hk := by
    rw [State.setTrigger_enabled, getLsbD_assignBit _ _ _ _ k.isLt] at hk
    split_ifs at hk with hki
    · exact hki ▸ hi
    · exact h.enabled_registered k hk

/-! ### The updates of the configuration -/

theorem State.Inv.setTrigger {s : State} (h : s.Inv) {i : Fin 8} (hi : i.val < s.count.val) (p c : Bool) :
    (s.setTrigger i p c).Inv where
  params_valid := h.params_valid
  mask := h.mask.setTrigger hi p c
  cursor_waiting := h.cursor_waiting
  cursor_tracing := h.cursor_tracing
  cursor_done := h.cursor_done
  store_specified := h.store_specified
  trace_in_range := h.trace_in_range
  store_canonical := h.store_canonical
  store_in_range := h.store_in_range
  unwritten_waiting := h.unwritten_waiting
  unwritten_tracing := h.unwritten_tracing

/-- A line in range takes the next position (R90): the entries below `count` stay, and it is in range itself. -/
theorem State.Inv.addLine {s : State} (h : s.Inv) {pin : Pin} (hcount : s.count.val < 8)
    (hpin : s.params.pinMin ≤ pin.toNat ∧ pin.toNat ≤ s.params.pinMax) : (s.addLine pin hcount).Inv where
  params_valid := h.params_valid
  mask := ⟨h.mask.prev_within, h.mask.cur_within, fun i hi => Nat.lt_succ_of_lt (h.mask.enabled_registered i hi)⟩
  cursor_waiting := h.cursor_waiting
  cursor_tracing := h.cursor_tracing
  cursor_done := h.cursor_done
  store_specified := h.store_specified
  trace_in_range i hi := by
    rw [s.addLine_count pin hcount] at hi
    rw [s.addLine_trace pin hcount]
    split_ifs with hnew
    · exact hpin
    · exact h.trace_in_range i (by omega)
  store_canonical := h.store_canonical
  store_in_range := h.store_in_range
  unwritten_waiting := h.unwritten_waiting
  unwritten_tracing := h.unwritten_tracing

theorem maskInv_of_clear {s : State} (hen : s.enabled = 0) (hp : s.expectedPrev = 0) (hc : s.expectedCur = 0) :
    s.MaskInv := by
  refine ⟨?_, ?_, fun i hi => ?_⟩
  · rw [hp]; exact BitVec.zero_and
  · rw [hc]; exact BitVec.zero_and
  · rw [hen] at hi; simp at hi

/-- In the idle state nothing is captured and no line is registered (R99, R170): only the parameters and the store's
form are left to hold. -/
theorem inv_of_cleared {s : State} (hparams : s.params.Valid) (hstate : s.state = .done) (hcount : s.count = 0)
    (hcursor : s.cursor = 0) (hmask : s.MaskInv) (hwf : Memory.wf s.store = true)
    (hrange : ∀ c ∈ s.store, c.1 < s.params.capacity) : s.Inv where
  params_valid := hparams
  mask := hmask
  cursor_waiting e := by simp [hstate] at e
  cursor_tracing e := by simp [hstate] at e
  cursor_done _ := .inl hcursor
  store_specified h := absurd hcursor h
  trace_in_range i hi := by simp [hcount] at hi
  store_canonical := hwf
  store_in_range := hrange
  unwritten_waiting e := by simp [hstate] at e
  unwritten_tracing e := by simp [hstate] at e

theorem State.Inv.clearConfiguration {s : State} (h : s.Inv) : s.clearConfiguration.Inv :=
  inv_of_cleared h.params_valid rfl rfl rfl (maskInv_of_clear rfl rfl rfl) h.store_canonical h.store_in_range

theorem State.Inv.hardwareReset {s : State} (h : s.Inv) : s.hardwareReset.Inv :=
  inv_of_cleared h.params_valid rfl rfl rfl (maskInv_of_clear rfl rfl rfl) rfl (by simp)

theorem State.AfterHardwareReset.inv {s : State} (h : s.AfterHardwareReset) : s.Inv :=
  inv_of_cleared h.params h.state h.count h.cursor (maskInv_of_clear h.enabled h.expectedPrev h.expectedCur)
    (by rw [h.store]; rfl) (by simp [h.store])

/-! ### The updates of a capture -/

theorem State.Inv.arm {s : State} (h : s.Inv) : s.arm.Inv where
  params_valid := h.params_valid
  mask := ⟨h.mask.prev_within, h.mask.cur_within, h.mask.enabled_registered⟩
  cursor_waiting _ := rfl
  cursor_tracing e := nomatch e
  cursor_done e := nomatch e
  store_specified _ j hj := by rw [State.arm_store, Memory.byteAt?_zeroed, if_pos (show j < s.params.capacity from hj)]; rfl
  trace_in_range := h.trace_in_range
  store_canonical := Memory.zeroed_wf _
  store_in_range := Memory.zeroed_bounded _
  unwritten_waiting _ j _ hj := s.slot_arm hj
  unwritten_tracing e := nomatch e

theorem State.StoreSpecified.write {s : State} (h : s.StoreSpecified) (i : Nat) (v : Byte) :
    (s.putSlot i v).StoreSpecified := by
  intro j hj
  rw [State.putSlot_store, Memory.byteAt?_write]
  split_ifs
  · rfl
  · exact h j hj

/-- A working tick finds a byte in every slot (R38 item 7). -/
theorem State.Inv.storeSpecified_of_working {s : State} (h : s.Inv) (hs : s.state ≠ .done) : s.StoreSpecified := by
  refine h.store_specified ?_
  cases hstate : s.state with
  | done => exact absurd hstate hs
  | waitingForTrigger => rw [h.cursor_waiting hstate]; decide
  | tracing => have := (h.cursor_tracing hstate).1; omega

/-- A waiting tick ends waiting or tracing. -/
theorem State.waitingTicked_state_ne_done {s : State} (hs : s.state = .waitingForTrigger) :
    s.waitingTicked.state ≠ .done := by
  simp only [State.waitingTicked, hs]
  split_ifs <;> simp

/-- A waiting tick leaves the slots behind the window (R114). -/
theorem State.waitingTicked_slot_of_ge (s : State) {j : Nat} (hj : 2 ≤ j) : s.waitingTicked.slot j = s.slot j := by
  rw [s.waitingTicked_slot, if_neg (by omega), if_neg (by omega)]

/-- A waiting tick moves the window and may start tracing at cursor 2, which the least capacity lies above (R8, R114). -/
theorem State.Inv.waitingTicked {s : State} (h : s.Inv) (hs : s.state = .waitingForTrigger)
    (hcap : 1 < s.params.capacity) : s.waitingTicked.Inv := by
  have hcursor := h.cursor_waiting hs
  have hunwritten : ∀ j, 2 ≤ j → j < s.params.capacity → s.waitingTicked.slot j = 0 := fun j hj hjN => by
    rw [s.waitingTicked_slot_of_ge hj]
    exact h.unwritten_waiting hs j hj hjN
  exact
    { params_valid := h.params_valid
      mask := ⟨h.mask.prev_within, h.mask.cur_within, h.mask.enabled_registered⟩
      cursor_waiting := fun _ => hcursor
      cursor_tracing := fun _ => ⟨hcursor.ge, hcursor.trans_lt h.params_valid.1⟩
      cursor_done := fun e => absurd e (State.waitingTicked_state_ne_done hs)
      store_specified := fun _ =>
        ((h.storeSpecified_of_working (by simp [hs])).write 0 (s.slot 1)).write 1 s.pack
      trace_in_range := h.trace_in_range
      store_canonical := Memory.write_wf _ _ _ (Memory.write_wf _ _ _ h.store_canonical)
      store_in_range := Memory.write_bounded _ (Memory.write_bounded _ h.store_in_range (Nat.zero_lt_of_lt hcap)) hcap
      unwritten_waiting := fun _ => hunwritten
      unwritten_tracing := fun _ j hj => hunwritten j (hcursor.ge.trans hj) }

/-- A tracing tick writes the slot at the cursor and moves the cursor past it, to `DONE` at `N` (R118). -/
theorem State.Inv.tickTracing {s : State} (h : s.Inv) (hs : s.state = .tracing) (hcur : s.cursor < s.params.capacity) :
    ((s.putSlot s.cursor s.pack).advanceCursor.recordReads s.oracleCalls).Inv := by
  have hlow := (h.cursor_tracing hs).1
  have hstate : ((s.putSlot s.cursor s.pack).advanceCursor.recordReads s.oracleCalls).state =
      if s.cursor + 1 = s.params.capacity then .done else .tracing := by
    simp [hs]
  exact
    { params_valid := h.params_valid
      mask := ⟨h.mask.prev_within, h.mask.cur_within, h.mask.enabled_registered⟩
      cursor_waiting := fun e => by rw [hstate] at e; split_ifs at e
      cursor_tracing := fun e => by
        rw [hstate] at e
        split_ifs at e with hlast
        show 2 ≤ s.cursor + 1 ∧ s.cursor + 1 < s.params.capacity
        omega
      cursor_done := fun e => by
        rw [hstate] at e
        split_ifs at e with hlast
        exact .inr hlast
      store_specified := fun _ => (h.storeSpecified_of_working (by simp [hs])).write _ _
      trace_in_range := h.trace_in_range
      store_canonical := Memory.write_wf _ _ _ h.store_canonical
      store_in_range := Memory.write_bounded _ h.store_in_range hcur
      unwritten_waiting := fun e => by rw [hstate] at e; split_ifs at e
      unwritten_tracing := fun _ j hj hjN => by
        have hj' : s.cursor + 1 ≤ j := hj
        rw [State.recordReads_slot, State.advanceCursor_slot, State.putSlot_slot, if_neg (by omega)]
        exact h.unwritten_tracing hs j (by omega) hjN }

/-! ### The invariant -/

/-- Every operation keeps the invariant (R38). -/
theorem State.Inv.exec {s t : State} {i : Instr} (h : s.Inv) (he : exec i s = .next t) : t.Inv := by
  cases State.effect_of_exec he with
  | addTraceFails pin hcause => exact h.of_sameEngine s.sameEngine_markConfiguration_failed
  | addTrace pin hpin hcount =>
    exact ((h.of_sameEngine s.sameEngine_markConfiguration).addLine hcount hpin).of_sameEngine
      (State.sameEngine_reply _ _)
  | addTrigFails pin edge hcause => exact h.of_sameEngine s.sameEngine_markConfiguration_failed
  | addTrig pin edge k p c hpos hedge =>
    have hk := ((s.firstPosition_eq_some pin k).1 hpos).1
    exact ((h.of_sameEngine s.sameEngine_markConfiguration).setTrigger hk p c).of_sameEngine
      (State.sameEngine_reply _ _)
  | setPeriod period => exact (h.of_sameEngine (s.sameEngine_withPeriod period)).of_sameEngine (State.sameEngine_reply _ _)
  | reset => exact h.clearConfiguration.of_sameEngine (State.sameEngine_reply _ _)
  | start => exact h.arm.of_sameEngine (State.sameEngine_reply _ _)
  | query _ r hr => exact h.of_sameEngine (s.sameEngine_reply r)
  | tickWaiting hs hcap => exact h.waitingTicked hs hcap
  | tickTracing hs hcur => exact h.tickTracing hs hcur
  | tickDone hs => exact h

theorem State.Inv.latch {s : State} (h : s.Inv) : s.latch.Inv := h.of_sameEngine s.sameEngine_latch

theorem State.Inv.present {s : State} (h : s.Inv) (c : Cycle) : (s.present c).Inv :=
  h.of_sameEngine (s.sameEngine_present c)

theorem State.Inv.step {s t : State} (h : s.Inv) (he : step s = .next t) : t.Inv :=
  step_preserves h.latch h.latch.hardwareReset (fun u hu => hu.of_sameEngine (u.sameEngine_reply .fail))
    (fun _ _ _ _ hu hv => hu.exec hv) he

/-- The command part of a cycle keeps the invariant. -/
theorem State.Inv.runCommand {s m : State} {c : Cycle} (h : s.Inv) (hm : runCommand c s = .next m) : m.Inv := by
  rcases runCommand_eq_next.1 hm with ⟨-, rfl⟩ | ⟨-, i, -, he⟩ | ⟨-, -, rfl⟩
  · exact h
  · exact h.exec he
  · exact h.of_sameEngine (s.sameEngine_reply .fail)

/-! ### The trigger stands at the first position of a line -/

/-- The new line stands above every enabled position, so no enabled position or line below one changes (R26, R90). -/
theorem State.FirstPositionsEnabled.addLine {s : State} (h : s.FirstPositionsEnabled) (hmask : s.MaskInv) {pin : Pin}
    (hcount : s.count.val < 8) : (s.addLine pin hcount).FirstPositionsEnabled := by
  intro i hi k hk
  have hireg := hmask.enabled_registered i hi
  have hki : k.val < i.val := hk
  rw [s.addLine_trace pin hcount, s.addLine_trace pin hcount, if_neg (by omega), if_neg (by omega)]
  exact h i hi k hk

/-- `ADDTRIG` enables the first position of its line (R93). -/
theorem State.FirstPositionsEnabled.setTrigger {s : State} (h : s.FirstPositionsEnabled) {pin : Pin} {i : Fin 8}
    (hpos : s.firstPosition pin = some i) (p c : Bool) : (s.setTrigger i p c).FirstPositionsEnabled := by
  obtain ⟨-, hpin, hfirst⟩ := (s.firstPosition_eq_some pin i).1 hpos
  intro j hj k hk
  rw [State.setTrigger_enabled, getLsbD_assignBit _ _ _ _ j.isLt] at hj
  split_ifs at hj with hji
  · obtain rfl : j = i := Fin.ext hji
    exact hpin ▸ hfirst k hk
  · exact h j hj k hk

theorem firstPositionsEnabled_of_clear {s : State} (hen : s.enabled = 0) : s.FirstPositionsEnabled := by
  intro i hi
  rw [hen] at hi
  simp at hi

/-- No operation enables a later position of a line (R96). -/
theorem State.FirstPositionsEnabled.exec {s t : State} {i : Instr} (h : s.FirstPositionsEnabled) (hinv : s.Inv)
    (he : exec i s = .next t) : t.FirstPositionsEnabled := by
  cases State.effect_of_exec he with
  | addTraceFails pin hcause => exact h.of_sameEngine s.sameEngine_markConfiguration_failed
  | addTrace pin hpin hcount =>
    have hmarked := h.of_sameEngine s.sameEngine_markConfiguration
    have hmask := (hinv.of_sameEngine s.sameEngine_markConfiguration).mask
    exact (hmarked.addLine hmask hcount).of_sameEngine (State.sameEngine_reply _ _)
  | addTrigFails pin edge hcause => exact h.of_sameEngine s.sameEngine_markConfiguration_failed
  | addTrig pin edge k p c hpos hedge =>
    have hmarked := h.of_sameEngine s.sameEngine_markConfiguration
    exact (hmarked.setTrigger (pin := pin) hpos p c).of_sameEngine (State.sameEngine_reply _ _)
  | setPeriod period => exact h
  | reset => exact firstPositionsEnabled_of_clear rfl
  | start => exact h
  | query _ r hr => exact h
  | tickWaiting hs hcap => exact h
  | tickTracing hs hcur => exact h
  | tickDone hs => exact h

/-! ### Samples hold no bit above `count` -/

/-- A byte with no bit at or above `n`. -/
def Below (n : Nat) (v : Byte) : Prop := ∀ b, n ≤ b → v.getLsbD b = false

theorem below_zero (n : Nat) : Below n 0 := fun _ _ => BitVec.getLsbD_zero

theorem State.below_pack (s : State) : Below s.count.val s.pack := fun b hb => by
  simp [s.getLsbD_pack, hb]

theorem State.SamplesWithinCount.putSlot {s : State} (h : s.SamplesWithinCount) (i : Nat) {v : Byte}
    (hv : Below s.count.val v) : (s.putSlot i v).SamplesWithinCount := by
  intro j w hw
  rw [State.putSlot_store, Memory.byteAt?_write] at hw
  split_ifs at hw with hji
  · cases hw; exact hv
  · exact h j w hw

/-- A slot that holds a byte holds none above `count`. -/
theorem State.SamplesWithinCount.below_slot {s : State} (h : s.SamplesWithinCount) (hspec : s.StoreSpecified) {j : Nat}
    (hj : j < s.params.capacity) : Below s.count.val (s.slot j) := by
  obtain ⟨v, hv⟩ := Option.isSome_iff_exists.1 (hspec j hj)
  rw [State.slot_of_byteAt? hv]
  exact h j v hv

theorem State.samplesWithinCount_arm (s : State) : s.arm.SamplesWithinCount := by
  intro j v hv
  rw [State.arm_store, Memory.byteAt?_zeroed] at hv
  split_ifs at hv
  cases hv
  exact below_zero _

/-- A larger table allows more bits (R90). -/
theorem State.SamplesWithinCount.addLine {s : State} (h : s.SamplesWithinCount) {pin : Pin} (hcount : s.count.val < 8) :
    (s.addLine pin hcount).SamplesWithinCount :=
  fun j v hv b hb => h j v hv b (Nat.le_of_succ_le hb)

/-- Every operation but `RESET` keeps the samples below `count` (R38, last paragraph). -/
theorem State.SamplesWithinCount.exec {s t : State} {i : Instr} (h : s.SamplesWithinCount) (hinv : s.Inv)
    (hreset : i ≠ .reset) (he : exec i s = .next t) : t.SamplesWithinCount := by
  cases State.effect_of_exec he with
  | addTraceFails pin hcause => exact h
  | addTrace pin hpin hcount =>
    exact ((h.of_sameEngine s.sameEngine_markConfiguration).addLine hcount).of_sameEngine (State.sameEngine_reply _ _)
  | addTrigFails pin edge hcause => exact h
  | addTrig pin edge k p c hpos hedge => exact h
  | setPeriod period => exact h
  | reset => exact absurd rfl hreset
  | start => exact s.samplesWithinCount_arm
  | query _ r hr => exact h
  | tickWaiting hs hcap =>
    have hslot := h.below_slot (hinv.storeSpecified_of_working (by simp [hs])) hcap
    exact (h.putSlot 0 hslot).putSlot 1 s.below_pack
  | tickTracing hs hcur => exact h.putSlot _ s.below_pack
  | tickDone hs => exact h

/-! ### The statements -/

/-- Settles O48: the ports, a hardware reset and every operation keep the invariant. -/
theorem stepKeepsInvariant : Obligations.StepKeepsInvariant :=
  fun _ _ h he => h.step he

/-- Settles O51: with the invariant, whose mask says that an enabled position is registered. -/
theorem stepKeepsFirstPositionsEnabled : Obligations.StepKeepsFirstPositionsEnabled := by
  intro s t hinv hfirst he
  refine (step_preserves (P := fun u => u.Inv ∧ u.FirstPositionsEnabled) ?_ ?_ ?_ ?_ he).2
  · exact ⟨hinv.latch, hfirst.of_sameEngine s.sameEngine_latch⟩
  · exact ⟨hinv.latch.hardwareReset, firstPositionsEnabled_of_clear rfl⟩
  · exact fun u hu => ⟨hu.1.of_sameEngine (u.sameEngine_reply .fail), hu.2⟩
  · exact fun i u v _ hu hv => ⟨hu.1.exec hv, hu.2.exec hu.1 hv⟩

/-- Settles O52: with the invariant, by which a waiting tick moves a written byte; a hardware reset empties the store. -/
theorem stepKeepsSamplesWithinCount : Obligations.StepKeepsSamplesWithinCount := by
  intro s t hinv hsamples hcommand he
  refine (step_preserves (P := fun u => u.Inv ∧ u.SamplesWithinCount) ?_ ?_ ?_ ?_ he).2
  · exact ⟨hinv.latch, hsamples⟩
  · exact ⟨hinv.latch.hardwareReset, fun j v hv => nomatch hv⟩
  · exact fun u hu => ⟨hu.1.of_sameEngine (u.sameEngine_reply .fail), hu.2⟩
  · intro i u v hi hu hv
    have hne : i ≠ .reset := by
      rintro rfl
      rcases hi with hi | hi
      · cases hi
      · exact hcommand hi
    exact ⟨hu.1.exec hv, hu.2.exec hu.1 hne hv⟩

/-- From a state with the invariant the command part of a cycle completes, and so does the tick after it. -/
theorem State.Inv.step_completes {s : State} (h : s.Inv) : ∃ t, Machine.step s = .next t := by
  cases hrst : s.nextCycle.rst with
  | true => exact ⟨_, step_of_rst hrst⟩
  | false =>
    have hcommand : ∃ m, Machine.runCommand s.nextCycle s.latch = .next m := by
      simp only [runCommand_eq_next]
      cases hvalid : s.nextCycle.cmdValid with
      | false => exact ⟨_, .inl ⟨rfl, rfl⟩⟩
      | true =>
        cases hd : decode s.nextCycle.cmd with
        | error e => exact ⟨_, .inr (.inr ⟨rfl, ⟨e, rfl⟩, rfl⟩)⟩
        | ok i =>
          obtain ⟨m, hm⟩ := exec_command_completes s.latch (decode_isCommand hd)
          exact ⟨m, .inr (.inl ⟨rfl, i, rfl, hm⟩)⟩
    obtain ⟨m, hm⟩ := hcommand
    have htick : ∃ t, runTick s.nextCycle m = .next t := by
      simp only [runTick_eq_next]
      cases s.nextCycle.tick with
      | false => exact ⟨m, .inl ⟨rfl, rfl⟩⟩
      | true =>
        obtain ⟨t, ht⟩ := exec_tick_completes (h.latch.runCommand hm)
        exact ⟨t, .inr ⟨rfl, ht⟩⟩
    obtain ⟨t, ht⟩ := htick
    exact ⟨t, step_eq_next.2 (.inr ⟨hrst, m, hm, ht⟩)⟩

/-- Settles O50: no part of a cycle stops on a state of the invariant. -/
theorem invariantStepCompletes : Obligations.InvariantStepCompletes :=
  fun _ h => h.step_completes

/-- Settles O53: the invariants hold after a hardware reset, and steps and presented cycles keep them. -/
theorem reachableStatesHaveInvariants : Obligations.ReachableStatesHaveInvariants := by
  intro s hreach
  induction hreach with
  | reset s h => exact ⟨h.inv, firstPositionsEnabled_of_clear h.enabled⟩
  | step s t _ he ih => exact ⟨ih.1.step he, stepKeepsFirstPositionsEnabled s t ih.1 ih.2 he⟩
  | present s c _ ih => exact ⟨ih.1.present c, ih.2⟩

/-- Settles O49: nothing is registered, enabled or captured in it. -/
theorem resetStateHasInvariant : Obligations.ResetStateHasInvariant := by
  have hreset : State.reset.AfterHardwareReset := ⟨rfl, rfl, rfl, rfl, rfl, rfl, rfl, rfl, rfl, by decide⟩
  exact ⟨hreset.inv, firstPositionsEnabled_of_clear rfl, hreset⟩

/-- Settles O59: by the invariant of the reachable states. -/
theorem unwrittenSlotsReadZero : Obligations.UnwrittenSlotsReadZero := by
  intro s idx hreach hidx hunwritten
  obtain ⟨hinv, -⟩ := reachableStatesHaveInvariants s hreach
  have hzero : s.slot idx.toNat = 0 := by
    rcases hunwritten with ⟨hs, hle⟩ | ⟨hs, hle⟩
    · exact hinv.unwritten_waiting hs _ hle hidx
    · exact hinv.unwritten_tracing hs _ hle hidx
  refine ⟨hzero, ?_⟩
  rw [exec_rdSample_of_lt hidx, hzero]
  rfl

theorem State.Inv.cursor_le {s : State} (h : s.Inv) : s.cursor ≤ s.params.capacity := by
  have hN := h.params_valid.1
  cases hs : s.state with
  | done => rcases h.cursor_done hs with hc | hc <;> omega
  | waitingForTrigger => have := h.cursor_waiting hs; omega
  | tracing => exact (h.cursor_tracing hs).2.le

/-- `CURW` is the least width that holds `N` (R8). -/
theorem capacity_lt_two_pow_iff {p : Config.Params} (h : p.Valid) (w : Nat) : p.capacity < 2 ^ w ↔ cursorWidth p ≤ w := by
  have hne : p.capacity ≠ 0 := by have := h.1; omega
  rw [cursorWidth, Nat.succ_le_iff, Nat.log2_lt hne]

/-- Settles O54: the cursor is at most `N`, which `CURW` bits hold. -/
theorem cursorFitsWidth : Obligations.CursorFitsWidth := by
  intro s h
  have hwidth := capacity_lt_two_pow_iff h.params_valid
  exact ⟨h.cursor_le, h.cursor_le.trans_lt ((hwidth _).2 le_rfl), hwidth⟩

end Sys2Proof.Machine
end

section
/-! PROOFS. Family 30_encoding.md: `Decode` and `Encode` are inverse (R83), the decoder is the opcode table (R75, R78), and
the response word (R77). -/

namespace Sys2Proof

/-! ### Decoding what was encoded -/

/-- The edge codes and the edge operands correspond (R76). -/
theorem Edge.ofCode_code (e : Edge) : Edge.ofCode e.code = e := by
  cases e with
  | rising | falling | high | low => rfl
  | unrecognised b => revert b; decide

theorem Edge.code_ofCode (c : BitVec 3) : (Edge.ofCode c).code = c := by
  revert c; decide

/-- A format-Z word decodes to the operation of its opcode (R74). -/
theorem decodeZ_cmdWord_zero (op : BitVec 4) (i : Instr) : decodeZ (cmdWord op 0) i = .ok i := by
  rw [decodeZ, extract_cmdWord _ _ _ _ le_rfl]
  rfl

theorem decode_encode_addTrace (pin : Pin) : decode (cmdWord 0x1#4 (0#24 ++ pin)) = .ok (.addTrace pin) := by
  have hreserved : (cmdWord 0x1#4 (0#24 ++ pin)).extractLsb' 8 24 = 0 := by
    rw [extract_cmdWord _ _ _ _ (by decide)]
    exact (extract_append_high 0#24 pin 0 24).trans (extract_all _)
  have hpin : pinField (cmdWord 0x1#4 (0#24 ++ pin)) = pin := by
    rw [pinField, extract_cmdWord _ _ _ _ (by decide), extract_append_low _ _ _ _ (by decide), extract_all]
  simp [decode, opField_cmdWord, whenReservedZero_eq_ok, hreserved, hpin]

theorem decode_encode_addTrig (pin : Pin) (edge : Edge) :
    decode (cmdWord 0x2#4 (0#21 ++ edge.code ++ pin)) = .ok (.addTrig pin edge) := by
  have hreserved : (cmdWord 0x2#4 (0#21 ++ edge.code ++ pin)).extractLsb' 11 21 = 0 := by
    rw [extract_cmdWord _ _ _ _ (by decide)]
    exact (extract_append_high (0#21 ++ edge.code) pin 3 21).trans
      ((extract_append_high 0#21 edge.code 0 21).trans (extract_all _))
  have hpin : pinField (cmdWord 0x2#4 (0#21 ++ edge.code ++ pin)) = pin := by
    rw [pinField, extract_cmdWord _ _ _ _ (by decide), extract_append_low _ _ _ _ (by decide), extract_all]
  have hedge : edgeField (cmdWord 0x2#4 (0#21 ++ edge.code ++ pin)) = edge.code := by
    rw [edgeField, extract_cmdWord _ _ _ _ (by decide)]
    exact (extract_append_high (0#21 ++ edge.code) pin 0 3).trans
      ((extract_append_low 0#21 edge.code 0 3 le_rfl).trans (extract_all _))
  simp [decode, opField_cmdWord, whenReservedZero_eq_ok, hreserved, hpin, hedge, Edge.ofCode_code]

theorem decode_encode_setPeriod (period : BitVec 32) : decode (cmdWord 0x3#4 period) = .ok (.setPeriod period) := by
  have hperiod : periodField (cmdWord 0x3#4 period) = period := by
    rw [periodField, extract_cmdWord _ _ _ _ (by decide), extract_all]
  simp [decode, opField_cmdWord, hperiod]

theorem decode_encode_rdSample (idx : BitVec 16) : decode (cmdWord 0x8#4 (0#16 ++ idx)) = .ok (.rdSample idx) := by
  have hreserved : (cmdWord 0x8#4 (0#16 ++ idx)).extractLsb' 16 16 = 0 := by
    rw [extract_cmdWord _ _ _ _ (by decide)]
    exact (extract_append_high 0#16 idx 0 16).trans (extract_all _)
  have hidx : idxField (cmdWord 0x8#4 (0#16 ++ idx)) = idx := by
    rw [idxField, extract_cmdWord _ _ _ _ (by decide), extract_append_low _ _ _ _ (by decide), extract_all]
  simp [decode, opField_cmdWord, whenReservedZero_eq_ok, hreserved, hidx]

/-- `Decode(Encode(c)) = c` (R83). -/
theorem decodePort_encode (i : Instr) : decodePort (encode i) = .ok i := by
  cases i with
  | addTrace pin => exact decode_encode_addTrace pin
  | addTrig pin edge => exact decode_encode_addTrig pin edge
  | setPeriod period => exact decode_encode_setPeriod period
  | rdSample idx => exact decode_encode_rdSample idx
  | reset => exact decodeZ_cmdWord_zero 0x4 _
  | start => exact decodeZ_cmdWord_zero 0x5 _
  | isActive => exact decodeZ_cmdWord_zero 0x6 _
  | isDone => exact decodeZ_cmdWord_zero 0x7 _
  | rdPeriod => exact decodeZ_cmdWord_zero 0x9 _
  | rdCount => exact decodeZ_cmdWord_zero 0xA _
  | tick => rfl

/-! ### Encoding what was decoded -/

/-- Two neighbouring fields of a word, put side by side, are one field. -/
theorem join_fields (w : CmdWord) (start low high : Nat) :
    w.extractLsb' (start + low) high ++ w.extractLsb' start low = w.extractLsb' start (high + low) := by
  apply BitVec.eq_of_getLsbD_eq
  intro i hi
  rw [BitVec.getLsbD_append]
  split_ifs with hlow
  · simp [hlow, hi]
  · have hhigh : i - low < high := by omega
    have hpos : start + low + (i - low) = start + i := by omega
    simp [hhigh, hi, hpos]

/-- A word is rebuilt from its opcode and what stands in its operand part. -/
theorem cmdWord_eq {w : CmdWord} {op : BitVec 4} {operands : BitVec 32} (hop : (opField w).toNat = op.toNat)
    (h : operands = periodField w) : cmdWord op operands = w := by
  rw [h, ← BitVec.eq_of_toNat_eq hop, cmdWord_of_fields]

/-- A word that passes the decoder's test of its reserved bits is its operand field below zeros. -/
theorem operands_eq_of_reserved {w : CmdWord} {i j : Instr} {low high : Nat}
    (h : whenReservedZero w (w.extractLsb' low high == 0) i = .ok j) :
    0#high ++ w.extractLsb' 0 low = w.extractLsb' 0 (high + low) := by
  have hzero : w.extractLsb' low high = 0#high := by simpa using (whenReservedZero_eq_ok.1 h).1
  rw [← hzero, ← join_fields w 0 low high, Nat.zero_add]

/-- A format-Z word has its operand part clear. -/
theorem encodeZ_decodeZ {w : CmdWord} {op : BitVec 4} {i j : Instr} (hop : (opField w).toNat = op.toNat)
    (h : decodeZ w i = .ok j) : i = j ∧ cmdWord op 0 = w := by
  obtain ⟨hzero, hij⟩ := whenReservedZero_eq_ok.1 h
  exact ⟨hij, cmdWord_eq hop (by simpa [periodField] using (beq_iff_eq.1 hzero).symm)⟩

theorem encode_decode_addTrace {w : CmdWord} {i : Instr} (hop : (opField w).toNat = 0x1)
    (h : whenReservedZero w (w.extractLsb' 8 24 == 0) (.addTrace (pinField w)) = .ok i) : encode i = .cmd w := by
  obtain ⟨-, rfl⟩ := whenReservedZero_eq_ok.1 h
  exact congrArg PortWord.cmd (cmdWord_eq hop (operands_eq_of_reserved h))

theorem encode_decode_addTrig {w : CmdWord} {i : Instr} (hop : (opField w).toNat = 0x2)
    (h : whenReservedZero w (w.extractLsb' 11 21 == 0) (.addTrig (pinField w) (Edge.ofCode (edgeField w))) = .ok i) :
    encode i = .cmd w := by
  obtain ⟨hzero, rfl⟩ := whenReservedZero_eq_ok.1 h
  have hreserved : w.extractLsb' 11 21 = 0#21 := beq_iff_eq.1 hzero
  have hoperands : 0#21 ++ edgeField w ++ pinField w = periodField w :=
    calc 0#21 ++ edgeField w ++ pinField w
        = w.extractLsb' (8 + 3) 21 ++ w.extractLsb' 8 3 ++ w.extractLsb' 0 8 := by rw [← hreserved]; rfl
      _ = w.extractLsb' (0 + 8) 24 ++ w.extractLsb' 0 8 := by rw [join_fields w 8 3 21]
      _ = periodField w := join_fields w 0 8 24
  rw [encode, Edge.code_ofCode]
  exact congrArg PortWord.cmd (cmdWord_eq hop hoperands)

theorem encode_decode_rdSample {w : CmdWord} {i : Instr} (hop : (opField w).toNat = 0x8)
    (h : whenReservedZero w (w.extractLsb' 16 16 == 0) (.rdSample (idxField w)) = .ok i) : encode i = .cmd w := by
  obtain ⟨-, rfl⟩ := whenReservedZero_eq_ok.1 h
  exact congrArg PortWord.cmd (cmdWord_eq hop (operands_eq_of_reserved h))

/-- A format-Z operation encodes to its own word. -/
theorem encode_decode_formatZ {w : CmdWord} {op : BitVec 4} {i j : Instr} (hi : encode i = .cmd (cmdWord op 0))
    (hop : (opField w).toNat = op.toNat) (h : decodeZ w i = .ok j) : encode j = .cmd w := by
  obtain ⟨rfl, hw⟩ := encodeZ_decodeZ hop h
  rw [hi, hw]

/-- `Encode(Decode(w)) = w` for a legal command word (R83). -/
theorem encode_decode {w : CmdWord} {i : Instr} (h : decode w = .ok i) : encode i = .cmd w := by
  unfold decode at h
  split at h
  next hop => exact encode_decode_addTrace hop h
  next hop => exact encode_decode_addTrig hop h
  next hop => cases h; exact congrArg PortWord.cmd (cmdWord_eq hop rfl)
  next hop => exact encode_decode_formatZ (op := 0x4) rfl hop h
  next hop => exact encode_decode_formatZ (op := 0x5) rfl hop h
  next hop => exact encode_decode_formatZ (op := 0x6) rfl hop h
  next hop => exact encode_decode_formatZ (op := 0x7) rfl hop h
  next hop => exact encode_decode_rdSample hop h
  next hop => exact encode_decode_formatZ (op := 0x9) rfl hop h
  next hop => exact encode_decode_formatZ (op := 0xA) rfl hop h
  next => cases h

/-! ### The opcode table -/

/-- A word that selects a row has the row's opcode, as every row fixes the opcode bits (R75). -/
theorem opField_of_selects {r : OpcodeRow} {w : CmdWord} (hr : r ∈ opcodeTable) (h : r.selects w = true) :
    opField w = opField r.matchBits := by
  have hmask : ∀ r ∈ opcodeTable, opField r.maskBits = BitVec.allOnes 4 := by decide
  have hfields := congrArg opField (beq_iff_eq.1 h)
  rw [opField, BitVec.extractLsb'_and] at hfields
  change opField w &&& opField r.maskBits = _ at hfields
  rwa [hmask r hr, BitVec.and_allOnes] at hfields

/-- The rows have different opcodes. -/
theorem row_eq_of_opcode : ∀ r ∈ opcodeTable, ∀ r' ∈ opcodeTable, opField r.matchBits = opField r'.matchBits → r = r' := by
  decide

/-- The operand part of a command word is its low bits (R73). -/
theorem getLsbD_cmdWord_low (op : BitVec 4) (operands : BitVec 32) {b : Nat} (hb : b < 32) :
    (cmdWord op operands).getLsbD b = operands.getLsbD b := by
  rw [cmdWord, BitVec.getLsbD_append, if_pos hb]

/-- The reserved bits of a row that a word selects are 0 in the word (R78). -/
theorem reserved_zero_of_selects {name : String} {op : BitVec 4} {reserved : BitVec 32} {w : CmdWord} (k n : Nat)
    (hn : k + n ≤ 32) (hk : ∀ b, b < n → reserved.getLsbD (k + b) = true)
    (h : OpcodeRow.selects { mnemonic := name, matchBits := cmdWord op 0, maskBits := cmdWord 0xF reserved } w = true) :
    w.extractLsb' k n = 0 := by
  apply BitVec.eq_of_getLsbD_eq
  intro b hb
  have hlow : k + b < 32 := by omega
  have hbit := congrArg (BitVec.getLsbD · (k + b)) (beq_iff_eq.1 h)
  simpa only [BitVec.getLsbD_and, getLsbD_cmdWord_low _ _ hlow, hk b hb, BitVec.getLsbD_extractLsb', hb, decide_true,
    Bool.true_and, Bool.and_true, BitVec.ofNat_eq_ofNat, BitVec.getLsbD_zero] using hbit

/-- A word whose opcode is that of a format-Z row, and which selects it, decodes. -/
theorem decodeZ_of_selects {name : String} {op : BitVec 4} {w : CmdWord} (i : Instr)
    (h : OpcodeRow.selects { mnemonic := name, matchBits := cmdWord op 0, maskBits := cmdWord 0xF 0xFFFFFFFF } w = true) :
    decodeZ w i = .ok i :=
  whenReservedZero_eq_ok.2 ⟨beq_iff_eq.2 (reserved_zero_of_selects 0 32 le_rfl (by decide) h), rfl⟩

/-- A word that selects a row decodes (R78). -/
theorem exists_decode_of_selects {r : OpcodeRow} {w : CmdWord} (hr : r ∈ opcodeTable) (h : r.selects w = true) :
    ∃ i, decode w = .ok i := by
  have hop := opField_of_selects hr h
  have hrow : r = opcodeTable[0] ∨ r = opcodeTable[1] ∨ r = opcodeTable[2] ∨ r = opcodeTable[3] ∨ r = opcodeTable[4] ∨
      r = opcodeTable[5] ∨ r = opcodeTable[6] ∨ r = opcodeTable[7] ∨ r = opcodeTable[8] ∨ r = opcodeTable[9] := by
    simpa [opcodeTable] using hr
  unfold decode
  rw [hop]
  rcases hrow with rfl | rfl | rfl | rfl | rfl | rfl | rfl | rfl | rfl | rfl
  · exact ⟨_, whenReservedZero_eq_ok.2
      ⟨beq_iff_eq.2 (reserved_zero_of_selects (op := 0x1) (reserved := 0xFFFFFF00) 8 24 (by decide) (by decide) h), rfl⟩⟩
  · exact ⟨_, whenReservedZero_eq_ok.2
      ⟨beq_iff_eq.2 (reserved_zero_of_selects (op := 0x2) (reserved := 0xFFFFF800) 11 21 (by decide) (by decide) h), rfl⟩⟩
  · exact ⟨_, rfl⟩
  · exact ⟨_, decodeZ_of_selects (op := 0x4) _ h⟩
  · exact ⟨_, decodeZ_of_selects (op := 0x5) _ h⟩
  · exact ⟨_, decodeZ_of_selects (op := 0x6) _ h⟩
  · exact ⟨_, decodeZ_of_selects (op := 0x7) _ h⟩
  · exact ⟨_, whenReservedZero_eq_ok.2
      ⟨beq_iff_eq.2 (reserved_zero_of_selects (op := 0x8) (reserved := 0xFFFF0000) 16 16 (by decide) (by decide) h), rfl⟩⟩
  · exact ⟨_, decodeZ_of_selects (op := 0x9) _ h⟩
  · exact ⟨_, decodeZ_of_selects (op := 0xA) _ h⟩

/-- The encoded word of every operation selects the row of its mnemonic (R75, R83). -/
theorem encode_selects_row (i : Instr) : Laws.EncodeSelectsRow.Statement i := by
  cases i with
  | addTrace pin => exact Laws.EncodeSelectsRow.addTrace pin
  | addTrig pin edge => exact Laws.EncodeSelectsRow.addTrig pin edge
  | setPeriod period => exact Laws.EncodeSelectsRow.setPeriod period
  | reset => exact Laws.EncodeSelectsRow.reset
  | start => exact Laws.EncodeSelectsRow.start
  | isActive => exact Laws.EncodeSelectsRow.isActive
  | isDone => exact Laws.EncodeSelectsRow.isDone
  | rdSample idx => exact Laws.EncodeSelectsRow.rdSample idx
  | rdPeriod => exact Laws.EncodeSelectsRow.rdPeriod
  | rdCount => exact Laws.EncodeSelectsRow.rdCount
  | tick => exact Laws.EncodeSelectsRow.tick

/-- A legal word selects the row of the operation it decodes to. -/
theorem row_of_decode {w : CmdWord} {i : Instr} (h : decode w = .ok i) :
    ∃ r ∈ opcodeTable, r.mnemonic = i.mnemonic ∧ r.selects w = true := by
  have hrow := encode_selects_row i
  rwa [Laws.EncodeSelectsRow.Statement, encode_decode h] at hrow

/-! ### The statements -/

/-- Settles O1: the command words by their formats, the strobe by its one bit. -/
theorem decodeEncodeAgree : Obligations.DecodeEncodeAgree := by
  refine ⟨decodePort_encode, fun p i h => ?_⟩
  cases p with
  | cmd w => exact encode_decode h
  | strobe b =>
    simp only [decodePort] at h
    split_ifs at h with hb
    cases h
    rw [beq_iff_eq.1 hb]
    rfl

/-- Settles O2: a row fixes the opcode bits and its reserved bits, which is what the decoder tests. -/
theorem decoderFollowsOpcodeTable : Obligations.DecoderFollowsOpcodeTable := by
  refine ⟨fun w r hr r' hr' h h' => ?_, fun w => ⟨?_, ?_⟩, fun w i h => ?_⟩
  · exact row_eq_of_opcode r hr r' hr' ((opField_of_selects hr h).symm.trans (opField_of_selects hr' h'))
  · rintro ⟨i, h⟩
    exact exists_row_selects_of_decode h
  · rintro ⟨r, hr, h⟩
    exact exists_decode_of_selects hr h
  · obtain ⟨r, hr, hname, hsel⟩ := row_of_decode h
    exact ⟨r, hr, hsel, hname⟩

/-- Settles O3: each word is evaluated. -/
theorem writtenWordsDecode : Obligations.WrittenWordsDecode := by
  unfold Obligations.WrittenWordsDecode
  refine ⟨?_, ?_, ?_, ?_, ?_, ?_, ?_, ?_, ?_, ?_, ?_⟩ <;> decide

/-- Settles O5: the response word is the bit `ok` above the data. -/
theorem responseWordLayout : Obligations.ResponseWordLayout := by
  intro r
  constructor
  · rw [Machine.Response.word, BitVec.getLsbD_append]
    simp
  · exact (extract_append_low (BitVec.ofBool r.ok) r.data 0 32 le_rfl).trans (extract_all _)

end Sys2Proof
end

section
/-! PROOFS. What each operation may change (R27) and read (R21, R31, R102, R192), the calls of the oracle (R13, R61), and
where an operation stops. -/

namespace Sys2Proof.Machine

/-! ### What an operation changes -/

/-- No operation changes the parameters, the schedule, the line answers or the reset count. -/
theorem exec_keeps_surroundings {s t : State} {i : Instr} (h : exec i s = .next t) :
    t.params = s.params ∧ t.inputs = s.inputs ∧ t.lineVal = s.lineVal ∧ t.epoch = s.epoch := by
  cases State.effect_of_exec h <;> exact ⟨rfl, rfl, rfl, rfl⟩

/-- Settles O40: by the outcomes of the operations; what changes an element is an outcome of an operation named for it. -/
theorem writersOfEachElement : Obligations.WritersOfEachElement := by
  intro s t i h
  obtain ⟨hparams, hinputs, hlineVal, hepoch⟩ := exec_keeps_surroundings h
  cases State.effect_of_exec h with
  | addTraceFails | addTrace | addTrigFails | addTrig | setPeriod | reset | start | query =>
    simp [State.addLine, State.withPeriod, *]
  | tickWaiting hs hcap =>
    have hslots : ∀ j, 1 < j → s.waitingTicked.slot j = s.slot j := fun j hj => s.waitingTicked_slot_of_ge hj
    simp +contextual [hs, hslots]
  | tickTracing hs hcur =>
    simp +contextual [hs, State.putSlot_slot]
  | tickDone hs => simp [hs]

/-- Settles O47: a step's own updates and its operations keep the parameters. -/
theorem stepKeepsParameters : Obligations.StepKeepsParameters := by
  intro s t h
  refine step_preserves (P := fun u => u.params = s.params) rfl rfl (fun u hu => hu) ?_ h
  intro i u v _ hu hv
  exact (exec_keeps_surroundings hv).1.trans hu

/-! ### Where an operation stops -/

theorem next_ne_refused (s : State) (r : Refusal) : (.next s : Result) ≠ .refused r := nofun

theorem writeSlot_ne_refused (i : Nat) (v : Byte) (s : State) (r : Refusal) : writeSlot i v s ≠ .refused r := by
  unfold writeSlot
  split_ifs <;> exact nofun

theorem andThen_ne_refused {r : Result} {f : State → Result} (hr : ∀ e, r ≠ .refused e) (hf : ∀ s e, f s ≠ .refused e) :
    ∀ e, andThen r f ≠ .refused e := by
  intro e
  cases r with
  | next s => exact hf s e
  | fault e' => exact nofun
  | refused e' => exact absurd rfl (hr e')

/-- A tick's writes do not refuse, so no tick does. -/
theorem execTick_ne_refused (s : State) (r : Refusal) : execTick s ≠ .refused r := by
  unfold execTick
  split
  · exact andThen_ne_refused (writeSlot_ne_refused _ _ _)
      (fun _ => andThen_ne_refused (writeSlot_ne_refused _ _ _) fun _ => next_ne_refused _) r
  · exact andThen_ne_refused (writeSlot_ne_refused _ _ _) (fun _ => next_ne_refused _) r
  · exact next_ne_refused _ _

theorem exec_ne_refused (s : State) (i : Instr) (r : Refusal) : exec i s ≠ .refused r := by
  cases hcmd : i.isCommand with
  | true =>
    obtain ⟨t, ht⟩ := exec_command_completes s hcmd
    rw [ht]
    exact nofun
  | false =>
    cases i with
    | tick => exact execTick_ne_refused s r
    | addTrace | addTrig | setPeriod | reset | start | isActive | isDone | rdSample | rdPeriod | rdCount => cases hcmd

/-- As nothing refuses, an operation that does not complete faults. -/
theorem exec_faults_iff (s : State) (i : Instr) : (∃ e, exec i s = .fault e) ↔ ¬∃ t, exec i s = .next t := by
  cases h : exec i s with
  | next t => simp
  | fault e => simp
  | refused r => exact absurd h (exec_ne_refused s i r)

/-- A tick completes when the slots it writes lie inside the store (R54). -/
theorem exec_tick_completes_iff (s : State) : (∃ t, exec .tick s = .next t) ↔
    (s.state = .waitingForTrigger ∧ 1 < s.params.capacity ∨ s.state = .tracing ∧ s.cursor < s.params.capacity ∨
      s.state = .done) := by
  simp only [exec, execTick_eq_next]
  constructor
  · rintro ⟨t, ⟨hs, hcap, -⟩ | ⟨hs, hcur, -⟩ | ⟨hs, -⟩⟩
    · exact .inl ⟨hs, hcap⟩
    · exact .inr (.inl ⟨hs, hcur⟩)
    · exact .inr (.inr hs)
  · rintro (⟨hs, hcap⟩ | ⟨hs, hcur⟩ | hs)
    · exact ⟨_, .inl ⟨hs, hcap, rfl⟩⟩
    · exact ⟨_, .inr (.inl ⟨hs, hcur, rfl⟩)⟩
    · exact ⟨_, .inr (.inr ⟨hs, rfl⟩)⟩

theorem exec_tick_faults_iff (s : State) : (∃ e, exec .tick s = .fault e) ↔
    (s.state = .waitingForTrigger ∧ s.params.capacity ≤ 1 ∨ s.state = .tracing ∧ s.params.capacity ≤ s.cursor) := by
  rw [exec_faults_iff, exec_tick_completes_iff]
  cases s.state <;> simp

/-- Settles O44: commands complete, and a tick faults when it does not complete. -/
theorem onlyTickOutsideStoreFaults : Obligations.OnlyTickOutsideStoreFaults := by
  intro s i
  refine ⟨exec_ne_refused s i, ?_⟩
  cases hcmd : i.isCommand with
  | true =>
    have hne : i ≠ .tick := by rintro rfl; cases hcmd
    rw [exec_faults_iff]
    simp [hne, exec_command_completes s hcmd]
  | false =>
    cases i with
    | tick => rw [exec_tick_faults_iff]; simp
    | addTrace | addTrig | setPeriod | reset | start | isActive | isDone | rdSample | rdPeriod | rdCount => cases hcmd

/-! ### The calls of the oracle -/

/-- The registered positions are the first `count` positions. -/
theorem filter_positions (n : Fin 9) : (positions.filter fun i => i.val < n.val) = positions.take n.val := by
  revert n; decide

/-- The calls of one `Pack`, as a list (R61). -/
theorem State.oracleCalls_eq (s : State) : s.oracleCalls = (positions.take s.count.val).map fun i =>
    { position := i, pin := s.trace[i], level := s.lineVal.getLsbD i } := by
  rw [← filter_positions]
  rfl

@[simp] theorem State.length_oracleCalls (s : State) : s.oracleCalls.length = s.count.val := by
  have hcount := s.count.isLt
  rw [s.oracleCalls_eq, List.length_map, List.length_take]
  simp [positions]
  omega

theorem getElem?_positions (k : Fin 8) : positions[k.val]? = some k := by
  revert k; decide

theorem State.getElem?_oracleCalls (s : State) {k : Fin 8} (hk : k.val < s.count.val) :
    s.oracleCalls[k.val]? = some { position := k, pin := s.trace[k], level := s.lineVal.getLsbD k } := by
  rw [s.oracleCalls_eq, List.getElem?_map, List.getElem?_take_of_lt hk, getElem?_positions]
  rfl

/-- A working tick records the calls of one `Pack` (R61). -/
theorem exec_tick_lineReads {s t : State} (hs : s.state ≠ .done) (h : exec .tick s = .next t) :
    t.lineReads = s.oracleCalls := by
  cases State.effect_of_exec h with
  | query _ r hr => cases hr
  | tickWaiting => rfl
  | tickTracing => rfl
  | tickDone hdone => exact absurd hdone hs

/-- Nothing but a working tick reads a line (R61). -/
theorem exec_lineReads {s t : State} {i : Instr} (hi : i = .tick → s.state = .done) (h : exec i s = .next t) :
    t.lineReads = s.lineReads := by
  cases State.effect_of_exec h with
  | tickWaiting hs => rw [hi rfl] at hs; cases hs
  | tickTracing hs => rw [hi rfl] at hs; cases hs
  | addTraceFails | addTrace | addTrigFails | addTrig | setPeriod | reset | start | query | tickDone => rfl

/-- Settles O27: the calls of a tick are those of one `Pack`, one for each of the first `count` positions. -/
theorem oracleCallsOfTick : Obligations.OracleCallsOfTick := by
  refine ⟨fun s t hs h => ?_, fun s t i hi h => exec_lineReads hi h⟩
  rw [exec_tick_lineReads hs h]
  exact ⟨s.length_oracleCalls, fun k hk => s.getElem?_oracleCalls hk⟩

/-- Settles O23: a bit of the sample is the answer for its position, if that is registered. -/
theorem packFoldsOracleCalls : Obligations.PackFoldsOracleCalls := by
  intro s
  refine ⟨s.length_oracleCalls, fun b => ⟨?_, s.below_pack b⟩⟩
  simp only [s.getLsbD_pack, Bool.and_eq_true, decide_eq_true_eq, State.mem_oracleCalls]
  constructor
  · rintro ⟨hb, hlevel⟩
    exact ⟨{ position := b, pin := s.trace[b], level := s.lineVal.getLsbD b }, ⟨hb, rfl, rfl⟩, rfl, hlevel⟩
  · rintro ⟨r, ⟨hr, -, hlevel⟩, rfl, hhigh⟩
    exact ⟨hr, hlevel.symm.trans hhigh⟩

/-! ### The configuration calls -/

/-- Settles O13: a line in range, on a table not full, takes the position `count`. -/
theorem addTraceRegistersOrFails : Obligations.AddTraceRegistersOrFails := by
  intro s pin
  constructor
  · rintro ⟨hpin, hcount⟩
    exact ⟨_, exec_addTrace_of_room hpin hcount, rfl, s.addLine_trace pin hcount, rfl⟩
  · intro hcause
    exact exec_addTrace_of_cause (mt (s.addTraceFailure_eq_none pin).1 hcause)

/-- The edge table, read from its four rows (R94). -/
theorem edgeBits_eq_some {edge : Edge} {p c : Bool} : edgeBits edge = some (p, c) ↔
    (edge = .rising ∧ p = false ∧ c = true ∨ edge = .falling ∧ p = true ∧ c = false ∨
      edge = .high ∧ p = true ∧ c = true ∨ edge = .low ∧ p = false ∧ c = false) := by
  cases edge <;> simp [edgeBits, eq_comm]

/-- Settles O14: the position is the first of the line, and each byte of the mask gets one bit assigned. -/
theorem addTrigSetsOrFails : Obligations.AddTrigSetsOrFails := by
  intro s pin edge
  constructor
  · intro i p c hi hpin hfirst hedge
    have hpos := (s.firstPosition_eq_some pin i).2 ⟨hi, hpin, hfirst⟩
    have hbit : ∀ (v : Byte) (x : Bool) (b : Fin 8),
        (assignBit v i x).getLsbD b = if b = i then x else v.getLsbD b := fun v x b => by
      rw [getLsbD_assignBit _ _ _ _ b.isLt]
      simp only [Fin.ext_iff]
    exact ⟨_, exec_addTrig_of_target hpos (edgeBits_eq_some.2 hedge), hbit _ _, hbit _ _, hbit _ _, rfl⟩
  · intro hcause
    rw [← s.firstPosition_eq_none, ← edgeBits_eq_none] at hcause
    exact exec_addTrig_of_cause hcause

/-- Assigning a bit twice is assigning it once (R95). -/
theorem assignBit_assignBit (v : Byte) (i : Fin 8) (a b : Bool) : assignBit (assignBit v i a) i b = assignBit v i b := by
  apply BitVec.eq_of_getLsbD_eq
  intro j hj
  simp only [getLsbD_assignBit _ _ _ _ hj]
  split_ifs <;> rfl

/-- Setting a position's trigger over an earlier one leaves the later alone (R95). -/
theorem State.setTrigger_setTrigger (s : State) (i : Fin 8) (p c p' c' : Bool) :
    (s.setTrigger i p c).setTrigger i p' c' = s.setTrigger i p' c' := by
  simp only [State.setTrigger, assignBit_assignBit]

/-- A second call sets the protocol mark no more than one call (R192). -/
theorem State.markConfiguration_idem (s : State) : s.markConfiguration.markConfiguration = s.markConfiguration := by
  simp only [State.markConfiguration, Bool.or_assoc, Bool.or_self]

/-- Settles O15: both calls set the bits of the same position, and the second assigns over the first. -/
theorem laterTriggerReplaces : Obligations.LaterTriggerReplaces := by
  intro s t u pin e e' hedge ht hu
  rw [← hu]
  cases State.effect_of_exec ht with
  | query _ r hr => cases hr
  | addTrigFails _ _ hcause =>
    rcases execAddTrig_cases pin e' s with ⟨hcause', -⟩ | ⟨i, p', c', hpos, hedge', -⟩
    · rw [exec_addTrig_of_cause hcause', exec_addTrig_of_cause (s := s.markConfiguration.failed) hcause']
      exact congrArg (Host.Outcome.next ·.failed) s.markConfiguration_idem
    · rw [exec_addTrig_of_target hpos hedge', exec_addTrig_of_target (s := s.markConfiguration.failed) hpos hedge']
      refine congrArg Host.Outcome.next ?_
      calc (s.markConfiguration.failed.markConfiguration.setTrigger i p' c').succeeded 0
          = (s.markConfiguration.markConfiguration.setTrigger i p' c').succeeded 0 := rfl
        _ = (s.markConfiguration.setTrigger i p' c').succeeded 0 := by rw [s.markConfiguration_idem]
  | addTrig _ _ i p c hpos _ =>
    obtain ⟨⟨p', c'⟩, hedge'⟩ := Option.ne_none_iff_exists'.1 hedge
    rw [exec_addTrig_of_target hpos hedge',
      exec_addTrig_of_target (s := (s.markConfiguration.setTrigger i p c).succeeded 0) hpos hedge']
    refine congrArg Host.Outcome.next ?_
    calc (((s.markConfiguration.setTrigger i p c).succeeded 0).markConfiguration.setTrigger i p' c').succeeded 0
        = ((s.markConfiguration.markConfiguration.setTrigger i p c).setTrigger i p' c').succeeded 0 := rfl
      _ = (s.markConfiguration.setTrigger i p' c').succeeded 0 := by
        rw [s.markConfiguration_idem, State.setTrigger_setTrigger]

/-! ### What an operation does not read -/

/-- `ADDTRACE` from another session state: the outcome is the same but for the protocol mark (R102, R192). -/
theorem exec_addTrace_withState {s t : State} {pin : Pin} (q : Session) (h : exec (.addTrace pin) s = .next t) :
    exec (.addTrace pin) { s with state := q } = .next { t with state := q, violated := s.violated || q != .done } := by
  cases State.effect_of_exec h with
  | query _ r hr => cases hr
  | addTraceFails _ hcause => exact exec_addTrace_of_cause (s := { s with state := q }) hcause
  | addTrace _ hpin hcount => exact exec_addTrace_of_room (s := { s with state := q }) hpin hcount

/-- `ADDTRIG` from another session state, likewise. -/
theorem exec_addTrig_withState {s t : State} {pin : Pin} {edge : Edge} (q : Session)
    (h : exec (.addTrig pin edge) s = .next t) :
    exec (.addTrig pin edge) { s with state := q } = .next { t with state := q, violated := s.violated || q != .done } := by
  cases State.effect_of_exec h with
  | query _ r hr => cases hr
  | addTrigFails _ _ hcause => exact exec_addTrig_of_cause (s := { s with state := q }) hcause
  | addTrig _ _ i p c hpos hedge => exact exec_addTrig_of_target (s := { s with state := q }) hpos hedge

/-- Settles O18: each call does not look at the session state but for the mark. -/
theorem configurationIgnoresState : Obligations.ConfigurationIgnoresState := by
  intro s t q i h
  constructor
  · rintro (⟨pin, rfl⟩ | ⟨pin, edge, rfl⟩)
    · exact exec_addTrace_withState q h
    · exact exec_addTrig_withState q h
  · rintro ⟨period, rfl⟩
    cases h
    rfl

section
variable {s : State} {tr : Vector Pin 8} (htr : ∀ k : Fin 8, k.val < s.count.val → tr[k] = s.trace[k])
include htr

/-- The search for a line stops at the registered entries (R21, R93). -/
theorem State.firstPosition_withTrace (pin : Pin) :
    State.firstPosition { s with trace := tr } pin = s.firstPosition pin := by
  apply List.find?_congr
  intro k _
  by_cases hk : k.val < s.count.val
  · show (s.registered k && tr[k] == pin) = (s.registered k && s.trace[k] == pin)
    rw [htr k hk]
  · simp [State.registered, hk]

/-- A tick asks for the lines of the registered entries (R21, R61). -/
theorem State.oracleCalls_withTrace : State.oracleCalls { s with trace := tr } = s.oracleCalls := by
  apply List.map_congr_left
  intro k hk
  have hreg : k.val < s.count.val := by simpa [State.registered] using (List.mem_filter.1 hk).2
  rw [← htr k hreg]

/-- A waiting tick carries other stale entries along. -/
theorem State.waitingTicked_withTrace :
    State.waitingTicked { s with trace := tr } = { s.waitingTicked with trace := tr } := by
  simp only [State.waitingTicked, State.oracleCalls_withTrace htr]
  rfl

/-- The entries agree below `count` after the same line was added to both tables (R90). -/
theorem State.addLine_withTrace_agree (pin : Pin) (hcount : s.count.val < 8) (k : Fin 8)
    (hk : k.val < (s.addLine pin hcount).count.val) :
    (State.addLine { s with trace := tr } pin hcount).trace[k] = (s.addLine pin hcount).trace[k] := by
  rw [s.addLine_count pin hcount] at hk
  rw [State.addLine_trace, State.addLine_trace]
  split_ifs with hnew
  · rfl
  · exact htr k (Nat.lt_of_le_of_ne (Nat.le_of_lt_succ hk) hnew)

end

/-- Settles O20: the registered entries are all that an operation reads of the table. -/
theorem staleEntriesNotRead : Obligations.StaleEntriesNotRead := by
  intro s t tr i htr h
  cases State.effect_of_exec h with
  | addTraceFails pin hcause => exact ⟨tr, exec_addTrace_of_cause (s := { s with trace := tr }) hcause, htr⟩
  | addTrace pin hpin hcount =>
    exact ⟨_, exec_addTrace_of_room (s := { s with trace := tr }) hpin hcount,
      State.addLine_withTrace_agree (s := s.markConfiguration) htr pin hcount⟩
  | addTrigFails pin edge hcause =>
    rw [← State.firstPosition_withTrace htr] at hcause
    exact ⟨tr, exec_addTrig_of_cause hcause, htr⟩
  | addTrig pin edge k p c hpos hedge =>
    rw [← State.firstPosition_withTrace htr] at hpos
    exact ⟨tr, exec_addTrig_of_target hpos hedge, htr⟩
  | setPeriod | start => exact ⟨tr, rfl, htr⟩
  | reset => exact ⟨tr, rfl, fun k hk => absurd hk (Nat.not_lt_zero _)⟩
  | query _ r hr =>
    have hr' : State.queryResponse { s with trace := tr } i = some r := by rw [← hr]; cases i <;> rfl
    exact ⟨tr, exec_query hr', htr⟩
  | tickWaiting hs hcap =>
    refine ⟨tr, (State.Effect.tickWaiting (s := { s with trace := tr }) hs hcap).exec_eq.trans ?_, htr⟩
    rw [State.waitingTicked_withTrace htr]
  | tickTracing hs hcur =>
    refine ⟨tr, (exec_tick_of_tracing (s := { s with trace := tr }) hs hcur).trans ?_, htr⟩
    rw [State.oracleCalls_withTrace htr]
    rfl
  | tickDone hs => exact ⟨tr, exec_tick_of_done (s := { s with trace := tr }) hs, htr⟩

/-- Settles O21: outside `WAITING_FOR_TRIGGER` every operation leaves the mark but `START`, which sets it. -/
theorem firstMarkUnobservable : Obligations.FirstMarkUnobservable := by
  intro s t b i hs h
  have hkept : t.state = s.state → (t.state = .waitingForTrigger → b = t.first) := fun he hw => absurd (he ▸ hw) hs
  cases State.effect_of_exec h with
  | addTraceFails pin hcause => exact ⟨b, exec_addTrace_of_cause (s := { s with first := b }) hcause, hkept rfl⟩
  | addTrace pin hpin hcount => exact ⟨b, exec_addTrace_of_room (s := { s with first := b }) hpin hcount, hkept rfl⟩
  | addTrigFails pin edge hcause => exact ⟨b, exec_addTrig_of_cause (s := { s with first := b }) hcause, hkept rfl⟩
  | addTrig pin edge k p c hpos hedge =>
    exact ⟨b, exec_addTrig_of_target (s := { s with first := b }) hpos hedge, hkept rfl⟩
  | setPeriod period => exact ⟨b, rfl, hkept rfl⟩
  | reset => exact ⟨b, rfl, fun hw => nomatch hw⟩
  | start => exact ⟨true, rfl, fun _ => rfl⟩
  | query _ r hr =>
    have hr' : State.queryResponse { s with first := b } i = some r := by rw [← hr]; cases i <;> rfl
    exact ⟨b, exec_query hr', hkept rfl⟩
  | tickWaiting hw hcap => exact absurd hw hs
  | tickTracing htracing hcur =>
    refine ⟨b, exec_tick_of_tracing (s := { s with first := b }) htracing hcur, fun hw => ?_⟩
    rw [State.recordReads_state, State.advanceCursor_state, State.putSlot_state, htracing] at hw
    split_ifs at hw
  | tickDone hdone => exact ⟨b, exec_tick_of_done (s := { s with first := b }) hdone, hkept rfl⟩

/-! ### The protocol mark -/

/-- The operation is one of the two calls that R192 watches. -/
def ConfiguresLines (i : Instr) : Prop := (∃ pin, i = .addTrace pin) ∨ ∃ pin edge, i = .addTrig pin edge

theorem not_configuresLines_of_query {s : State} {i : Instr} {r : Response} (h : s.queryResponse i = some r) :
    ¬ConfiguresLines i := by
  rintro (⟨pin, rfl⟩ | ⟨pin, edge, rfl⟩) <;> cases h

/-- What an operation makes of the protocol mark (R192). -/
theorem exec_violated_iff {s t : State} {i : Instr} (h : exec i s = .next t) :
    t.violated = true ↔ s.violated = true ∨ s.state ≠ .done ∧ ConfiguresLines i := by
  cases State.effect_of_exec h with
  | query _ r hr => simp [not_configuresLines_of_query hr]
  | addTraceFails | addTrace | addTrigFails | addTrig => simp [ConfiguresLines, State.addLine]
  | setPeriod | reset | start | tickWaiting | tickTracing | tickDone =>
    simp [ConfiguresLines, State.withPeriod, State.waitingTicked]

/-- What the command part of a cycle makes of the protocol mark. -/
theorem runCommand_violated_iff {c : Cycle} {s m : State} (hrst : c.rst = false) (h : runCommand c s = .next m) :
    m.violated = true ↔ s.violated = true ∨ s.state ≠ .done ∧ ∃ i, c.command = some i ∧ ConfiguresLines i := by
  rcases runCommand_eq_next.1 h with ⟨hvalid, rfl⟩ | ⟨hvalid, i, hd, he⟩ | ⟨hvalid, ⟨e, hd⟩, rfl⟩
  · simp [Cycle.command, hvalid]
  · rw [exec_violated_iff he, Cycle.command_of_decode hrst hvalid hd]
    simp
  · simp [Cycle.command, hrst, hvalid, hd]

/-- A tick leaves the protocol mark. -/
theorem runTick_violated {c : Cycle} {m t : State} (h : runTick c m = .next t) : t.violated = m.violated := by
  rcases runTick_eq_next.1 h with ⟨-, rfl⟩ | ⟨-, he⟩
  · rfl
  · rcases execTick_eq_next.1 he with ⟨-, -, rfl⟩ | ⟨-, -, rfl⟩ | ⟨-, rfl⟩ <;> simp

/-- What a step makes of the protocol mark (R192). -/
theorem step_violated_iff {s t : State} (h : step s = .next t) : t.violated = true ↔
    s.nextCycle.rst = false ∧
      (s.violated = true ∨ s.state ≠ .done ∧ ∃ i, s.nextCycle.command = some i ∧ ConfiguresLines i) := by
  rcases step_eq_next.1 h with ⟨hrst, rfl⟩ | ⟨hrst, m, hm, ht⟩
  · simp [hrst]
  · rw [runTick_violated ht, runCommand_violated_iff hrst hm]
    simp [hrst]

/-- From a state with another protocol mark, an operation does the same but for the mark (R192). -/
theorem exec_withViolated {s t : State} {i : Instr} (v : Bool) (h : exec i s = .next t) :
    ∃ w, exec i { s with violated := v } = .next { t with violated := w } := by
  cases State.effect_of_exec h with
  | addTraceFails pin hcause => exact ⟨_, exec_addTrace_of_cause (s := { s with violated := v }) hcause⟩
  | addTrace pin hpin hcount => exact ⟨_, exec_addTrace_of_room (s := { s with violated := v }) hpin hcount⟩
  | addTrigFails pin edge hcause => exact ⟨_, exec_addTrig_of_cause (s := { s with violated := v }) hcause⟩
  | addTrig pin edge k p c hpos hedge => exact ⟨_, exec_addTrig_of_target (s := { s with violated := v }) hpos hedge⟩
  | setPeriod | reset | start => exact ⟨v, rfl⟩
  | query _ r hr =>
    have hr' : State.queryResponse { s with violated := v } i = some r := by rw [← hr]; cases i <;> rfl
    exact ⟨v, exec_query hr'⟩
  | tickWaiting hs hcap => exact ⟨v, (State.Effect.tickWaiting (s := { s with violated := v }) hs hcap).exec_eq⟩
  | tickTracing hs hcur => exact ⟨v, exec_tick_of_tracing (s := { s with violated := v }) hs hcur⟩
  | tickDone hs => exact ⟨v, exec_tick_of_done (s := { s with violated := v }) hs⟩

/-- Settles O45: the mark is followed through the parts of a cycle. -/
theorem protocolMark : Obligations.ProtocolMark := by
  refine ⟨fun s t h => ?_, fun s t v i h => exec_withViolated v h⟩
  rw [step_violated_iff h]
  have hcalls : (∃ i, s.nextCycle.command = some i ∧ ConfiguresLines i) ↔
      (∃ pin, s.nextCycle.command = some (.addTrace pin)) ∨
        ∃ pin edge, s.nextCycle.command = some (.addTrig pin edge) := by
    constructor
    · rintro ⟨i, hi, ⟨pin, rfl⟩ | ⟨pin, edge, rfl⟩⟩
      · exact .inl ⟨pin, hi⟩
      · exact .inr ⟨pin, edge, hi⟩
    · rintro (⟨pin, hi⟩ | ⟨pin, edge, hi⟩)
      · exact ⟨_, hi, .inl ⟨pin, rfl⟩⟩
      · exact ⟨_, hi, .inr ⟨pin, edge, rfl⟩⟩
  rw [hcalls]

end Sys2Proof.Machine
end

section
/-! PROOFS. Family 41_capture.md: the comparator (R116), the runs of ticks after `START` up to the trigger and to the end of
the capture (R115, R119, R123, R129), and the masks that can fire. -/

namespace Sys2Proof.Machine

/-! ### The comparator, bit by bit -/

/-- A byte within a mask is the masked sample when they agree on the bits of the mask (R116). -/
theorem eq_and_iff_of_within {e en s : Byte} (h : e &&& ~~~en = 0) :
    e = (en &&& s) ↔ ∀ i : Fin 8, en.getLsbD i = true → s.getLsbD i = e.getLsbD i := by
  constructor
  · intro he i hi
    have hbit := congrArg (BitVec.getLsbD · i.val) he
    simp only [BitVec.getLsbD_and, hi, Bool.true_and] at hbit
    exact hbit.symm
  · intro hall
    apply BitVec.eq_of_getLsbD_eq
    intro j hj
    have hwithin := within_iff.1 h ⟨j, hj⟩
    have hagree := hall ⟨j, hj⟩
    rw [BitVec.getLsbD_and]
    cases hen : en.getLsbD j with
    | true => simpa using (hagree hen).symm
    | false => simpa [hen] using hwithin

/-- Under the mask invariant the comparator is the conjunction of the per-line conditions (41_capture.md section 3). -/
theorem trig_iff_of_within {en ep ec s0 s1 : Byte} (hp : ep &&& ~~~en = 0) (hc : ec &&& ~~~en = 0) :
    trig en ep ec s0 s1 = true ↔ ∀ i : Fin 8, en.getLsbD i = true →
      s0.getLsbD i = ep.getLsbD i ∧ s1.getLsbD i = ec.getLsbD i := by
  rw [trig_iff, eq_and_iff_of_within hp, eq_and_iff_of_within hc, ← forall_and]
  simp only [imp_and]

/-- A masked sample lies within the mask. -/
theorem and_within (en s : Byte) : (en &&& s) &&& ~~~en = 0 := by
  rw [within_iff]
  intro i hi
  rw [BitVec.getLsbD_and, Bool.and_eq_true] at hi
  exact hi.1

/-- The comparator holds only of expected bytes within the mask. -/
theorem within_of_trig {en ep ec s0 s1 : Byte} (h : trig en ep ec s0 s1 = true) :
    ep &&& ~~~en = 0 ∧ ec &&& ~~~en = 0 := by
  obtain ⟨rfl, rfl⟩ := (trig_iff _ _ _ _ _).1 h
  exact ⟨and_within _ _, and_within _ _⟩

/-- With one line enabled the comparator compares that line's two levels (R94). -/
theorem trig_assignBit_iff (i : Fin 8) (p c : Bool) (s0 s1 : Byte) :
    trig (assignBit 0 i true) (assignBit 0 i p) (assignBit 0 i c) s0 s1 = true ↔
      s0.getLsbD i = p ∧ s1.getLsbD i = c := by
  have hzero : (0 : Byte) &&& ~~~(0 : Byte) = 0 := by decide
  have hbit : ∀ (x : Bool) (k : Fin 8), (assignBit 0 i x).getLsbD k = if k = i then x else false := fun x k => by
    rw [getLsbD_assignBit _ _ _ _ k.isLt]
    simp [Fin.ext_iff]
  rw [trig_iff_of_within (within_assignBit hzero i p) (within_assignBit hzero i c)]
  simp only [hbit]
  simp

/-- Settles O28: each side is compared bit by bit. -/
theorem comparatorProperties : Obligations.ComparatorProperties := by
  refine ⟨fun en ep ec s0 s1 hp hc => trig_iff_of_within hp hc, fun en ep ec s0 s1 hbroken => ?_, fun s0 s1 => ?_,
    trig_assignBit_iff⟩
  · rw [← Bool.not_eq_true]
    intro h
    obtain ⟨hp, hc⟩ := within_of_trig h
    exact hbroken.elim (fun h => h hp) (fun h => h hc)
  · simp [trig_iff]

/-! ### The window of a waiting tick -/

theorem exec_tick_waiting {s : State} (hs : s.state = .waitingForTrigger) (hcap : 1 < s.params.capacity) :
    exec .tick s = .next s.waitingTicked :=
  (State.Effect.tickWaiting hs hcap).exec_eq

/-- While the mark is set a tick does not trigger (R115). -/
theorem State.waitingTicked_state_of_first {s : State} (h : s.first = true) : s.waitingTicked.state = s.state := by
  simp [State.waitingTicked, h]

/-- With the mark clear the comparator decides, on the window the tick leaves (R116). -/
theorem State.waitingTicked_state_of_not_first {s : State} (h : s.first = false) : s.waitingTicked.state =
    if trig s.enabled s.expectedPrev s.expectedCur (s.slot 1) s.pack = true then .tracing else s.state := by
  simp only [State.waitingTicked, h, true_and, trig_iff]

/-- Settles O29: `START` sets the mark and clears the slots, which the first tick finds. -/
theorem firstTickNeverTriggers : Obligations.FirstTickNeverTriggers := by
  intro s a levels hvalid ha
  cases ha
  have hcap : 1 < s.params.capacity := Nat.lt_of_lt_of_le (by decide) hvalid.1
  refine ⟨_, exec_tick_waiting rfl hcap, State.waitingTicked_state_of_first rfl, rfl, ?_, ?_⟩
  · rw [State.waitingTicked_slot]
    exact s.slot_arm hcap
  · rw [State.waitingTicked_slot]
    rfl

/-! ### Runs of ticks -/

/-- A run of ticks is made of its first ticks and the ticks after them. -/
theorem tickRun_add (levels : Nat → Byte) (m k : Nat) (s : State) :
    tickRun levels (m + k) s = andThen (tickRun levels m s) (tickRun (fun j => levels (m + j)) k) := by
  induction k with
  | zero =>
    show tickRun levels m s = andThen (tickRun levels m s) .next
    cases tickRun levels m s <;> rfl
  | succ k ih => rw [← Nat.add_assoc, tickRun, ih, andThen_assoc]; rfl

theorem tickRun_add_of {levels : Nat → Byte} {m : Nat} {s u : State} (h : tickRun levels m s = .next u) (k : Nat) :
    tickRun levels (m + k) s = tickRun (fun j => levels (m + j)) k u := by
  rw [tickRun_add, h, andThen_next]

theorem tickRun_params {levels : Nat → Byte} {k : Nat} {s t : State} (h : tickRun levels k s = .next t) :
    t.params = s.params := by
  induction k generalizing t with
  | zero => cases h; rfl
  | succ k ih =>
    obtain ⟨m, hm, ht⟩ := andThen_eq_next.1 h
    have hparams : t.params = m.params := (exec_keeps_surroundings ht).1
    exact hparams.trans (ih hm)

/-! ### Waiting for the trigger -/

/-- `t` is the state after `k` ticks on `a`, none of which fired: `START` left `a`, and slot 1 holds the latest sample. -/
structure WaitedFor (a : State) (levels : Nat → Byte) (k : Nat) (t : State) : Prop where
  run : tickRun levels k a = .next t
  params : t.params = a.params
  count : t.count = a.count
  enabled : t.enabled = a.enabled
  expectedPrev : t.expectedPrev = a.expectedPrev
  expectedCur : t.expectedCur = a.expectedCur
  state : t.state = .waitingForTrigger
  cursor : t.cursor = 2
  first : t.first = decide (k = 0)
  latest : 0 < k → t.slot 1 = a.sample (levels k)

/-- `START` begins to wait. -/
theorem waitedFor_zero_of_start {s a : State} (levels : Nat → Byte) (h : exec .start s = .next a) :
    WaitedFor a levels 0 a := by
  cases h
  exact ⟨rfl, rfl, rfl, rfl, rfl, rfl, rfl, rfl, rfl, fun h => absurd h (Nat.lt_irrefl 0)⟩

section
variable {a t : State} {levels : Nat → Byte} {k : Nat}

/-- The state after the next tick. -/
def nextTicked (levels : Nat → Byte) (k : Nat) (t : State) : State := (t.presentLines (levels (k + 1))).waitingTicked

theorem WaitedFor.run_succ (h : WaitedFor a levels k t) (hcap : 1 < a.params.capacity) :
    tickRun levels (k + 1) a = .next (nextTicked levels k t) := by
  rw [tickRun_succ_of h.run]
  exact exec_tick_waiting (by simp [h.state]) (by simpa [h.params] using hcap)

/-- The next tick moves the latest sample to slot 0. -/
theorem WaitedFor.nextTicked_slot_zero (h : WaitedFor a levels k t) (hk : 0 < k) :
    (nextTicked levels k t).slot 0 = a.sample (levels k) := by
  rw [← h.latest hk]
  exact State.waitingTicked_slot _ 0

/-- The next tick puts its sample in slot 1. -/
theorem WaitedFor.nextTicked_slot_one (h : WaitedFor a levels k t) :
    (nextTicked levels k t).slot 1 = a.sample (levels (k + 1)) := by
  rw [nextTicked, State.waitingTicked_slot, if_pos rfl, State.presentLines_pack, h.count]
  rfl

/-- The first tick never fires (R115). -/
theorem WaitedFor.nextTicked_state_first (h : WaitedFor a levels 0 t) :
    (nextTicked levels 0 t).state = .waitingForTrigger := by
  rw [nextTicked, State.waitingTicked_state_of_first (by simp [h.first]), State.presentLines_state, h.state]

/-- A later tick fires when the comparator holds of its sample and the one before (R116, R123). -/
theorem WaitedFor.nextTicked_state (h : WaitedFor a levels k t) (hk : 0 < k) : (nextTicked levels k t).state =
    if a.firesAt levels (k + 1) = true then .tracing else .waitingForTrigger := by
  have hfirst : (t.presentLines (levels (k + 1))).first = false := by simp [h.first, hk.ne']
  rw [nextTicked, State.waitingTicked_state_of_not_first hfirst]
  simp only [State.presentLines_enabled, State.presentLines_expectedPrev, State.presentLines_expectedCur,
    State.presentLines_slot, State.presentLines_pack, State.presentLines_state, h.enabled, h.expectedPrev, h.expectedCur,
    h.latest hk, h.count, h.state, State.firesAt, State.sample, Nat.add_sub_cancel]

/-- A tick that does not fire leaves the engine waiting. -/
theorem WaitedFor.succ (h : WaitedFor a levels k t) (hcap : 1 < a.params.capacity)
    (hfires : 0 < k → a.firesAt levels (k + 1) = false) : WaitedFor a levels (k + 1) (nextTicked levels k t) where
  run := h.run_succ hcap
  params := h.params
  count := h.count
  enabled := h.enabled
  expectedPrev := h.expectedPrev
  expectedCur := h.expectedCur
  state := by
    rcases Nat.eq_zero_or_pos k with rfl | hk
    · exact h.nextTicked_state_first
    · rw [h.nextTicked_state hk, hfires hk]; rfl
  cursor := h.cursor
  first := by simp [nextTicked]
  latest _ := h.nextTicked_slot_one

end

/-- While no window fires, the ticks complete and the engine waits (R129). -/
theorem exists_waitedFor {a : State} {levels : Nat → Byte} (hcap : 1 < a.params.capacity)
    (hstart : WaitedFor a levels 0 a) {n : Nat} (hfires : ∀ k, 2 ≤ k → k ≤ n → a.firesAt levels k = false) :
    ∃ t, WaitedFor a levels n t := by
  induction n with
  | zero => exact ⟨a, hstart⟩
  | succ n ih =>
    obtain ⟨t, ht⟩ := ih fun k hk hkn => hfires k hk (Nat.le_succ_of_le hkn)
    exact ⟨_, ht.succ hcap fun hn => hfires (n + 1) (Nat.succ_le_succ hn) le_rfl⟩

/-- `START` keeps the parameters, which leave room for the window. -/
theorem one_lt_capacity_of_start {s a : State} (hvalid : s.params.Valid) (h : exec .start s = .next a) :
    1 < a.params.capacity := by
  have hN := hvalid.1
  rw [(exec_keeps_surroundings h).1]
  omega

/-- Settles O32: by the run of waiting ticks. -/
theorem noTriggerWaitsForever : Obligations.NoTriggerWaitsForever := by
  intro s a levels n hvalid ha hfires
  obtain ⟨t, ht⟩ := exists_waitedFor (one_lt_capacity_of_start hvalid ha) (waitedFor_zero_of_start levels ha) hfires
  exact ⟨t, ht.run, ht.state, ht.cursor⟩

/-! ### From the trigger to the end of the capture -/

/-- `u` is the state after tick `T` on `a`, the tick that fired: slots 0 and 1 hold the window. -/
structure TriggeredAt (a : State) (levels : Nat → Byte) (T : Nat) (u : State) : Prop where
  run : tickRun levels T a = .next u
  state : u.state = .tracing
  cursor : u.cursor = 2
  params : u.params = a.params
  count : u.count = a.count
  slot_zero : u.slot 0 = a.sample (levels (T - 1))
  slot_one : u.slot 1 = a.sample (levels T)

/-- The first window that fires starts the trace (R116, R123). -/
theorem exists_triggeredAt {a : State} {levels : Nat → Byte} (hcap : 1 < a.params.capacity)
    (hstart : WaitedFor a levels 0 a) {T : Nat} (hT : 2 ≤ T) (hfire : a.firesAt levels T = true)
    (hbefore : ∀ k, 2 ≤ k → k < T → a.firesAt levels k = false) : ∃ u, TriggeredAt a levels T u := by
  obtain ⟨n, rfl⟩ : ∃ n, T = n + 1 := ⟨T - 1, by omega⟩
  have hn : 0 < n := by omega
  obtain ⟨t, ht⟩ := exists_waitedFor hcap hstart (n := n) fun k hk hkn => hbefore k hk (Nat.lt_succ_of_le hkn)
  refine ⟨_, ht.run_succ hcap, ?_, ht.cursor, ht.params, ht.count, ht.nextTicked_slot_zero hn, ht.nextTicked_slot_one⟩
  rw [ht.nextTicked_state hn, hfire]
  rfl

/-- The samples a tracing run of `k` ticks stores: the slots below the cursor stay, the next `k` hold the samples (R118). -/
theorem tickRun_tracing_slots (levels : Nat → Byte) {s : State} (hs : s.state = .tracing) (k : Nat)
    (hk : s.cursor + k ≤ s.params.capacity) : ∃ t, tickRun levels k s = .next t ∧
      (∀ j, j < s.cursor → t.slot j = s.slot j) ∧ ∀ j, j < k → t.slot (s.cursor + j) = s.sample (levels (j + 1)) := by
  induction k with
  | zero => exact ⟨s, rfl, fun _ _ => rfl, fun j hj => absurd hj (Nat.not_lt_zero j)⟩
  | succ k ih =>
    obtain ⟨m, hm, hbelow, habove⟩ := ih (by omega)
    obtain ⟨m', hm', hstate, hcursor, hparams, hcount⟩ := tickRun_of_tracing levels hs k (by omega)
    obtain rfl : m = m' := by simpa using hm.symm.trans hm'
    have hinside : m.cursor < m.params.capacity := by rw [hcursor, hparams]; omega
    have hslot : ∀ j, (((m.presentLines (levels (k + 1))).putSlot m.cursor
        (m.presentLines (levels (k + 1))).pack).advanceCursor.recordReads
          (m.presentLines (levels (k + 1))).oracleCalls).slot j =
        if j = s.cursor + k then s.sample (levels (k + 1)) else m.slot j := fun j => by
      simp [State.putSlot_slot, hcursor, hcount, State.sample]
    refine ⟨_, (tickRun_succ_of hm).trans (exec_tick_of_tracing hstate hinside), fun j hj => ?_, fun j hj => ?_⟩
    · rw [State.presentLines_cursor, hslot, if_neg (by omega)]
      exact hbelow j hj
    · rw [State.presentLines_cursor, hslot]
      split_ifs with hlast
      · rw [Nat.add_left_cancel hlast]
      · exact habove j (by omega)

/-- The capture ends `N - 2` ticks after the trigger, with the samples around it (41_capture.md section 5). -/
theorem TriggeredAt.completes {a u : State} {levels : Nat → Byte} {T : Nat} (h : TriggeredAt a levels T u) (hT : 1 ≤ T)
    (hN : 3 ≤ a.params.capacity) : ∃ t, tickRun levels (T + (a.params.capacity - 2)) a = .next t ∧ t.Completed ∧
      ∀ j, j < a.params.capacity → t.slot j = a.sample (levels (T + j - 1)) := by
  have hcursor := h.cursor
  have hparams := h.params
  rw [tickRun_add_of h.run]
  obtain ⟨t, ht, hbelow, habove⟩ := tickRun_tracing_slots (fun j => levels (T + j)) h.state (a.params.capacity - 2)
    (by rw [hcursor, hparams]; omega)
  obtain ⟨t', ht', hdone, hend, -⟩ := tickRun_completes (fun j => levels (T + j)) h.state (a.params.capacity - 3)
    (by rw [hcursor, hparams]; omega)
  have hticks : a.params.capacity - 3 + 1 = a.params.capacity - 2 := by omega
  obtain rfl : t = t' := by simpa [hticks, ht] using ht'
  refine ⟨t, ht, ⟨hdone, hend.trans (by rw [tickRun_params ht])⟩, fun j hj => ?_⟩
  match j with
  | 0 => exact (hbelow 0 (by omega)).trans h.slot_zero
  | 1 => exact (hbelow 1 (by omega)).trans h.slot_one
  | j + 2 =>
    have hslot := habove j (by omega)
    rwa [hcursor, Nat.add_comm 2 j, State.sample, h.count, show T + (j + 1) = T + (j + 2) - 1 by omega] at hslot

/-- Settles O31: the trigger, then the ticks in `TRACING`. -/
theorem completedCaptureHoldsWindow : Obligations.CompletedCaptureHoldsWindow := by
  intro s a levels T hvalid ha hT hfire hbefore
  have hparams := (exec_keeps_surroundings ha).1
  have hN := hvalid.1
  obtain ⟨u, hu⟩ := exists_triggeredAt (one_lt_capacity_of_start hvalid ha) (waitedFor_zero_of_start levels ha) hT hfire
    hbefore
  refine ⟨⟨u, hu.run, hu.state, hu.cursor⟩, ?_⟩
  rw [Nat.add_sub_assoc (by omega), ← hparams]
  exact hu.completes (by omega) (by rw [hparams]; exact hN)

/-- With no line enabled every window fires (41_capture.md section 3). -/
theorem firesAt_of_clear {a : State} (hen : a.enabled = 0) (hp : a.expectedPrev = 0) (hc : a.expectedCur = 0)
    (levels : Nat → Byte) (k : Nat) : a.firesAt levels k = true := by
  rw [State.firesAt, hen, hp, hc, trig_iff]
  exact ⟨BitVec.zero_and.symm, BitVec.zero_and.symm⟩

/-- Settles O33: one tick waits, the second fires, `N - 2` more fill the store, and then nothing changes. -/
theorem freeRunFillsInCapacityTicks : Obligations.FreeRunFillsInCapacityTicks := by
  intro s a levels hvalid hen hp hc ha k
  have hcap := one_lt_capacity_of_start hvalid ha
  have hstart := waitedFor_zero_of_start levels ha
  have hparams := (exec_keeps_surroundings ha).1
  have hN : 3 ≤ a.params.capacity := hparams ▸ hvalid.1
  have hfire : ∀ k, a.firesAt levels k = true := by
    cases ha
    exact firesAt_of_clear hen hp hc levels
  obtain ⟨u, hu⟩ := exists_triggeredAt hcap hstart le_rfl (hfire 2) fun k hk hk' => absurd hk (by omega)
  rw [← hparams]
  rcases Nat.lt_or_ge k a.params.capacity with hlt | hge
  · have hbusy : ∃ t, tickRun levels k a = .next t ∧ t.state ≠ .done := by
      rcases Nat.lt_or_ge k 2 with hk | hk
      · obtain ⟨t, ht⟩ := exists_waitedFor hcap hstart (n := k) fun j hj hjk => absurd hj (by omega)
        exact ⟨t, ht.run, by simp [ht.state]⟩
      · obtain ⟨t, ht, hstate, -⟩ := tickRun_of_tracing (fun j => levels (2 + j)) hu.state (k - 2)
          (by rw [hu.cursor, hu.params]; omega)
        rw [← tickRun_add_of hu.run, Nat.add_sub_of_le hk] at ht
        exact ⟨t, ht, by simp [hstate]⟩
    obtain ⟨t, ht, hne⟩ := hbusy
    exact ⟨t, ht, iff_of_false hne (Nat.not_le.2 hlt), fun h => absurd h (Nat.not_le.2 hlt)⟩
  · obtain ⟨t, ht, ⟨hdone, -⟩, hslots⟩ := hu.completes (by decide) hN
    rw [Nat.add_sub_of_le (by omega)] at ht
    obtain ⟨t', ht', hsame⟩ := tickRun_after_done ht hdone (k - a.params.capacity)
    rw [Nat.add_sub_of_le hge] at ht'
    refine ⟨t', ht', iff_of_true (by rw [hsame]; exact hdone) hge, fun _ j hj => ?_⟩
    have hsample := hslots j hj
    rw [show 2 + j - 1 = j + 1 by omega] at hsample
    rw [hsame]
    exact hsample

/-! ### Masks that can fire -/

/-- The level that a byte of the mask asks of a line: that of the line's enabled position, low if it has none. -/
def State.askedLevel (s : State) (expected : Byte) (pin : Pin) : Bool :=
  decide (∃ i : Fin 8, s.enabled.getLsbD i = true ∧ s.trace[i] = pin ∧ expected.getLsbD i = true)

/-- A line has one enabled position at most, so the level asked for its line is the bit of that position (R96). -/
theorem State.askedLevel_eq {s : State} (h : s.FirstPositionsEnabled) {i : Fin 8} (hi : s.enabled.getLsbD i = true)
    (expected : Byte) : s.askedLevel expected s.trace[i] = expected.getLsbD i := by
  have hunique : ∀ k : Fin 8, s.enabled.getLsbD k = true → s.trace[k] = s.trace[i] → k = i := by
    intro k hk hline
    rcases lt_trichotomy k i with hlt | heq | hgt
    · exact absurd hline (h i hi k hlt)
    · exact heq
    · exact absurd hline.symm (h k hk i hgt)
  rw [State.askedLevel, Bool.eq_iff_iff, decide_eq_true_iff]
  constructor
  · rintro ⟨k, hk, hline, hbit⟩
    exact hunique k hk hline ▸ hbit
  · intro hbit
    exact ⟨i, hi, rfl, hbit⟩

/-- Settles O34: each line takes the level that its enabled position asks for. -/
theorem everyMaskCanFire : Obligations.EveryMaskCanFire := by
  intro s hinv hfirst
  refine ⟨s.askedLevel s.expectedPrev, s.askedLevel s.expectedCur, fun v0 v1 h0 h1 => ?_⟩
  rw [trig_iff_of_within hinv.mask.prev_within hinv.mask.cur_within]
  intro i hi
  have hreg := hinv.mask.enabled_registered i hi
  have hcount : s.count.val ≤ 8 := Nat.le_of_lt_succ s.count.isLt
  have hsample : ∀ v : Byte, (s.sample v).getLsbD i = v.getLsbD i := fun v => by
    rw [State.sample, getLsbD_packUpTo _ _ hcount]
    simp [hreg]
  rw [hsample, hsample, h0, h1, State.askedLevel_eq hfirst hi, State.askedLevel_eq hfirst hi]
  exact ⟨rfl, rfl⟩

end Sys2Proof.Machine
end

section
/-! PROOFS. The clock cycle (R70, R71, R153, R170) and the runs over cycles and events (R14). -/

namespace Sys2Proof.Machine

/-! ### The parts of one cycle -/

theorem andThen_next_right (r : Result) : andThen r .next = r := by
  cases r <;> rfl

/-- A cycle with a command alone runs it on the latched state (R71). -/
theorem step_of_command {s : State} {i : Instr} (hrst : s.nextCycle.rst = false) (hvalid : s.nextCycle.cmdValid = true)
    (htick : s.nextCycle.tick = false) (hd : decode s.nextCycle.cmd = .ok i) : step s = exec i s.latch := by
  have hrun : runTick s.nextCycle = .next := by funext m; simp [runTick, htick]
  rw [step, clockEdge, runCycle, hrst, hrun, runCommand, hvalid, execWord, hd]
  exact andThen_next_right _

/-- A cycle with a command and a tick runs the tick on the state the command left (R71, R153). -/
theorem step_of_command_tick {s : State} {i : Instr} (hrst : s.nextCycle.rst = false)
    (hvalid : s.nextCycle.cmdValid = true) (htick : s.nextCycle.tick = true) (hd : decode s.nextCycle.cmd = .ok i) :
    step s = andThen (exec i s.latch) (exec .tick) := by
  have hrun : runTick s.nextCycle = exec .tick := by funext m; simp [runTick, htick]
  rw [step, clockEdge, runCycle, hrst, hrun, runCommand, hvalid, execWord, hd]
  rfl

/-- Settles O6: with no tick in the cycle, nothing follows the command. -/
theorem stepRunsDecodedCommand : Obligations.StepRunsDecodedCommand :=
  fun _ _ hrst hvalid htick hd => step_of_command hrst hvalid htick hd

/-- Settles O7: the command part of the cycle is empty. -/
theorem stepRunsTick : Obligations.StepRunsTick := by
  intro s hrst hvalid htick
  rw [step, clockEdge, runCycle, hrst, runCommand, hvalid]
  show runTick s.nextCycle s.latch = exec .tick s.latch
  rw [runTick, htick]
  rfl

/-- Settles O8: `a` is the latched state, and the command's part depends on the decoder alone. -/
theorem clockCycleOrder : Obligations.ClockCycleOrder := by
  rintro s a rfl
  rw [step, clockEdge, runCycle, runCommand, execWord]
  cases decode s.nextCycle.cmd <;> rfl

/-- Settles O9: the hardware reset of the latched state, read field by field. -/
theorem hardwareResetLeaves : Obligations.HardwareResetLeaves := by
  intro s hrst
  refine ⟨_, step_of_rst hrst, rfl, rfl, rfl, rfl, rfl, rfl, rfl, rfl, rfl, rfl, fun i => ?_, rfl, fun _ => rfl, rfl, rfl,
    rfl⟩
  simp

/-- Settles O46: both clear the same elements; the command keeps what the reset draws anew. -/
theorem resetAgainstHardwareReset : Obligations.ResetAgainstHardwareReset := by
  intro s t u ht hrst hu
  rw [exec_reset] at ht
  rw [step_of_rst hrst] at hu
  cases ht
  cases hu
  exact ⟨rfl, rfl, rfl, rfl, rfl, rfl, rfl, fun _ => rfl, rfl, rfl, rfl, rfl⟩

/-- Settles O10: `START` and the first tick after it; `RESET` and a tick in `DONE`; `RDSAMPLE`, whose response no tick
touches, and which leaves a state whose tick completes. -/
theorem sameCycleCommandFirst : Obligations.SameCycleCommandFirst := by
  intro s hinv hrst hvalid htick
  refine ⟨fun hd => ?_, fun hd => ?_, fun idx hd hidx => ?_⟩
  · have hcap : 1 < s.params.capacity := Nat.lt_of_lt_of_le (by decide) hinv.params_valid.1
    rw [step_of_command_tick hrst hvalid htick hd, exec_start, andThen_next]
    refine ⟨_, exec_tick_waiting rfl hcap, State.waitingTicked_state_of_first rfl, rfl, rfl, ?_, ?_⟩
    · rw [State.waitingTicked_slot]
      exact s.latch.slot_arm hcap
    · rw [State.waitingTicked_slot]
      rfl
  · rw [step_of_command_tick hrst hvalid htick hd, exec_reset, andThen_next]
    exact exec_tick_of_done rfl
  · have hread := exec_rdSample_of_lt (s := s.latch) (idx := idx) hidx
    rw [step_of_command_tick hrst hvalid htick hd, hread, andThen_next]
    obtain ⟨t, ht⟩ := exec_tick_completes (hinv.latch.exec hread)
    exact ⟨t, ht, exec_tick_rsp ht⟩

/-! ### The output ports -/

/-- A command reads no line (R61). -/
theorem runCommand_lineReads {c : Cycle} {s m : State} (h : runCommand c s = .next m) : m.lineReads = s.lineReads := by
  rcases runCommand_eq_next.1 h with ⟨-, rfl⟩ | ⟨-, i, hd, he⟩ | ⟨-, -, rfl⟩
  · rfl
  · have hne : i ≠ .tick := by rintro rfl; exact absurd (decode_isCommand hd) Bool.noConfusion
    exact exec_lineReads (fun h => absurd h hne) he
  · rfl

/-- A tick drives no response (R71). -/
theorem runTick_rsp {c : Cycle} {m t : State} (h : runTick c m = .next t) : t.rsp = m.rsp := by
  rcases runTick_eq_next.1 h with ⟨-, rfl⟩ | ⟨-, he⟩
  · rfl
  · exact exec_tick_rsp he

/-- A `Pack` reads position `i`, on the line of its entry, exactly when `i` is registered (R13). -/
theorem State.exists_oracleCall_iff (s : State) (i : Fin 8) :
    (∃ r ∈ s.oracleCalls, r.position = i ∧ r.pin = s.lineSel i) ↔ s.registered i = true := by
  simp only [State.registered, decide_eq_true_eq, State.mem_oracleCalls]
  constructor
  · rintro ⟨r, ⟨hr, -, -⟩, rfl, -⟩
    exact hr
  · intro hi
    exact ⟨{ position := i, pin := s.trace[i], level := s.lineVal.getLsbD i }, ⟨hi, rfl, rfl⟩, rfl, rfl⟩

/-- A line is enabled at the moment of the tick exactly where the tick reads one (R70). -/
theorem lineEn_iff_of_runTick {c : Cycle} {m t : State} (hreads : m.lineReads = []) (h : runTick c m = .next t) (i : Fin 8) :
    m.lineEn c.tick i = true ↔ ∃ r ∈ t.lineReads, r.position = i ∧ r.pin = m.lineSel i := by
  rcases runTick_eq_next.1 h with ⟨htick, rfl⟩ | ⟨htick, he⟩
  · simp [State.lineEn, htick, hreads]
  · by_cases hs : m.state = .done
    · rw [exec_lineReads (i := .tick) (fun _ => hs) he, hreads, State.lineEn_of_done hs]
      simp
    · rw [exec_tick_lineReads hs he, m.exists_oracleCall_iff]
      simp [State.lineEn, State.working, htick, hs]

/-- Settles O11: the ports show the state between the command and the tick, whose reads the step records. -/
theorem outputPortsMatchStep : Obligations.OutputPortsMatchStep := by
  intro s t o ht ho
  rcases State.outputs_eq_ok.1 ho with ⟨hrst, rfl⟩ | ⟨hrst, m, hm, rfl⟩
  · rw [step_of_rst hrst] at ht
    cases ht
    refine ⟨rfl, fun i => ?_⟩
    simp [State.lineEn]
  · rcases step_eq_next.1 ht with ⟨hrst', -⟩ | ⟨-, m', hm', htick⟩
    · simp [hrst] at hrst'
    · obtain rfl : m = m' := by simpa using hm.symm.trans hm'
      have hreads : m.lineReads = [] := runCommand_lineReads hm
      refine ⟨by rw [runTick_rsp htick], fun i => ?_⟩
      simpa using lineEn_iff_of_runTick hreads htick i

/-! ### What the ports do to an operation -/

/-- Go on from a next state by a change of that state alone. -/
def mapNext (f : State → State) (r : Result) : Result := andThen r fun t => .next (f t)

theorem andThen_mapNext (f : State → State) (r : Result) (g : State → Result) :
    andThen (mapNext f r) g = andThen r fun t => g (f t) := by
  cases r <;> rfl

theorem mapNext_andThen (f : State → State) (r : Result) (g : State → Result) :
    mapNext f (andThen r g) = andThen r fun t => mapNext f (g t) := by
  cases r <;> rfl

/-- The state with its schedule, its line answers and its response changed. -/
def State.mapPorts (inputs : List Cycle → List Cycle) (lineVal : Byte → Byte) (rsp : Option Response → Option Response)
    (s : State) : State :=
  { s with inputs := inputs s.inputs, lineVal := lineVal s.lineVal, rsp := rsp s.rsp }

/-- A command does not look at the schedule and the line answers. -/
theorem exec_command_mapPorts {s t : State} {i : Instr} (g : List Cycle → List Cycle) (l : Byte → Byte)
    (hcmd : i.isCommand = true) (h : exec i s = .next t) :
    exec i (s.mapPorts g l id) = .next (t.mapPorts g l id) := by
  cases State.effect_of_exec h with
  | addTraceFails pin hcause => exact exec_addTrace_of_cause (s := s.mapPorts g l id) hcause
  | addTrace pin hpin hcount => exact exec_addTrace_of_room (s := s.mapPorts g l id) hpin hcount
  | addTrigFails pin edge hcause => exact exec_addTrig_of_cause (s := s.mapPorts g l id) hcause
  | addTrig pin edge k p c hpos hedge => exact exec_addTrig_of_target (s := s.mapPorts g l id) hpos hedge
  | setPeriod | reset | start => rfl
  | query _ r hr =>
    have hr' : (s.mapPorts g l id).queryResponse i = some r := by rw [← hr]; cases i <;> rfl
    exact exec_query hr'
  | tickWaiting | tickTracing | tickDone => cases hcmd

section
variable (g : List Cycle → List Cycle) (r : Option Response → Option Response)

theorem writeSlot_mapPorts (i : Nat) (v : Byte) (s : State) :
    writeSlot i v (s.mapPorts g id r) = mapNext (State.mapPorts g id r) (writeSlot i v s) := by
  by_cases hi : i < s.params.capacity
  · rw [writeSlot_of_lt v hi, writeSlot_of_lt (s := s.mapPorts g id r) v hi]
    rfl
  · rw [writeSlot, writeSlot, if_neg hi, if_neg (show ¬i < (s.mapPorts g id r).params.capacity from hi)]
    rfl

theorem evaluateTrigger_mapPorts (s : State) :
    (s.mapPorts g id r).evaluateTrigger = s.evaluateTrigger.mapPorts g id r := by
  simp only [State.evaluateTrigger, apply_ite (State.mapPorts g id r)]
  rfl

/-- A tick does not look at the schedule and the response, and stops where it stops with others. -/
theorem execTick_mapPorts (s : State) :
    execTick (s.mapPorts g id r) = mapNext (State.mapPorts g id r) (execTick s) := by
  have hstate : (s.mapPorts g id r).state = s.state := rfl
  unfold execTick
  rw [hstate]
  cases s.state with
  | done => rfl
  | waitingForTrigger =>
    simp only [tickWaiting, writeSlot_mapPorts, andThen_mapNext, mapNext_andThen, evaluateTrigger_mapPorts]
    rfl
  | tracing =>
    simp only [tickTracing, writeSlot_mapPorts, andThen_mapNext, mapNext_andThen]
    rfl

end

/-! ### The schedule -/

/-- A step takes the next cycle off the schedule. -/
theorem step_inputs {s t : State} (h : step s = .next t) : t.inputs = s.inputs.tail := by
  refine step_preserves (P := fun u => u.inputs = s.inputs.tail) rfl rfl (fun u hu => hu) ?_ h
  intro i u v _ hu hv
  exact (exec_keeps_surroundings hv).2.1.trans hu

theorem step_present_inputs {s t : State} {c : Cycle} (h : step (s.present c) = .next t) : t.inputs = s.inputs :=
  step_inputs h

/-- The state with other cycles to come. -/
def State.scheduled (s : State) (cs : List Cycle) : State := { s with inputs := cs }

theorem runCommand_scheduled (c : Cycle) (cs : List Cycle) (s : State) :
    runCommand c (s.scheduled cs) = mapNext (State.scheduled · cs) (runCommand c s) := by
  unfold runCommand execWord
  cases c.cmdValid with
  | false => rfl
  | true =>
    cases hd : decode c.cmd with
    | error e => rfl
    | ok i =>
      obtain ⟨t, ht⟩ := exec_command_completes s (decode_isCommand hd)
      have hports := exec_command_mapPorts (fun _ => cs) id (decode_isCommand hd) ht
      simp only [if_true, ht]
      exact hports

theorem runTick_scheduled (c : Cycle) (cs : List Cycle) (s : State) :
    runTick c (s.scheduled cs) = mapNext (State.scheduled · cs) (runTick c s) := by
  unfold runTick
  cases c.tick with
  | false => rfl
  | true => exact execTick_mapPorts (fun _ => cs) id s

/-- What a presented cycle does is the same whatever is scheduled after it (R70). -/
theorem step_present_scheduled (s : State) (c : Cycle) (cs : List Cycle) :
    step ((s.scheduled cs).present c) = mapNext (State.scheduled · cs) (step (s.present c)) := by
  rw [step_present, step_present]
  show runCycle c ((s.beginCycle c).scheduled cs) = _
  unfold runCycle
  cases c.rst with
  | true => rfl
  | false =>
    simp only [Bool.false_eq_true, if_false, runCommand_scheduled, andThen_mapNext, runTick_scheduled, mapNext_andThen]

/-- Steps on the listed cycles present them one by one. -/
theorem runSteps_listed (cs : List Cycle) (s : State) :
    runSteps cs.length (s.scheduled (cs ++ s.inputs)) = runCycles cs s := by
  induction cs generalizing s with
  | nil => rfl
  | cons c cs ih =>
    have hstep : step (s.scheduled (c :: cs ++ s.inputs)) =
        mapNext (State.scheduled · (cs ++ s.inputs)) (step (s.present c)) := step_present_scheduled s c _
    rw [List.length_cons, runSteps_succ, runCycles_cons, hstep, andThen_mapNext]
    cases he : step (s.present c) with
    | next t => rw [andThen_next, andThen_next, ← step_present_inputs he, ih]
    | fault e => rfl
    | refused e => rfl

theorem runSchedule_eq_runCycles (schedule : Nat → Cycle) (n : Nat) (s : State) :
    runSchedule schedule n s = runCycles ((List.range n).map schedule) s := by
  induction n with
  | zero => rfl
  | succ n ih =>
    rw [runSchedule_succ, ih, List.range_succ, List.map_append, runCycles_append]
    congr 1
    funext t
    exact (andThen_next_right _).symm

/-- Settles O58: presented cycles are run as a list, and a list is run by the steps on it. -/
theorem presentedCyclesAreListedCycles : Obligations.PresentedCyclesAreListedCycles := by
  intro schedule n s
  have hlisted := runSteps_listed ((List.range n).map schedule) s
  rw [List.length_map, List.length_range, ← runSchedule_eq_runCycles] at hlisted
  exact ⟨runSchedule_eq_runCycles schedule n s, hlisted⟩

/-! ### Infinite runs -/

/-- From a state of the invariant every finite part of a schedule runs (R14). -/
theorem runSchedule_completes (schedule : Nat → Cycle) {s : State} (h : s.Inv) (k : Nat) :
    ∃ t, runSchedule schedule k s = .next t ∧ t.Inv ∧ t.inputs = s.inputs := by
  induction k with
  | zero => exact ⟨s, rfl, h, rfl⟩
  | succ k ih =>
    obtain ⟨m, hm, hinv, hinputs⟩ := ih
    obtain ⟨t, ht⟩ := (hinv.present (schedule k)).step_completes
    refine ⟨t, ?_, (hinv.present (schedule k)).step ht, (step_present_inputs ht).trans hinputs⟩
    rw [runSchedule_succ, hm, andThen_next, ht]

/-- A run passes through the states its finite parts lead to. -/
theorem runSchedule_of_isRun {schedule : Nat → Cycle} {σ : Nat → State} (h : IsRun schedule σ) (k : Nat) :
    runSchedule schedule k (σ 0) = .next (σ k) := by
  induction k with
  | zero => rfl
  | succ k ih => rw [runSchedule_succ, ih, andThen_next, h k]

/-- Settles O57: the states the finite parts lead to are the run, and any run passes through them. -/
theorem everyInfiniteScheduleRuns : Obligations.EveryInfiniteScheduleRuns := by
  intro schedule s h
  choose σ hrun hinv hinputs using runSchedule_completes schedule h
  have hzero : σ 0 = s := by simpa [runSchedule] using (hrun 0).symm
  refine ⟨σ, hzero, fun k => ?_, fun k => ⟨hinv k, hinputs k⟩, hrun, fun σ' hzero' hrun' => ?_⟩
  · have hsucc := hrun (k + 1)
    rwa [runSchedule_succ, hrun k, andThen_next] at hsucc
  · funext k
    have hk := runSchedule_of_isRun hrun' k
    rw [hzero', hrun k] at hk
    simpa using hk.symm

/-! ### Events -/

/-- A command always answers (R71, R77). -/
theorem exec_command_rsp {s t : State} {i : Instr} (hcmd : i.isCommand = true) (h : exec i s = .next t) :
    t.rsp.isSome = true := by
  rcases command_answers s hcmd with ⟨-, v, he⟩ | ⟨-, m, d, he⟩ <;> (cases he.symm.trans h; rfl)

/-- A step yields a response exactly when its cycle carries a command (R71). -/
theorem step_rsp_isSome_iff {s t : State} (h : step s = .next t) :
    t.rsp.isSome = true ↔ s.nextCycle.rst = false ∧ s.nextCycle.cmdValid = true := by
  rcases step_eq_next.1 h with ⟨hrst, rfl⟩ | ⟨hrst, m, hm, ht⟩
  · simp [hrst]
  · rw [runTick_rsp ht]
    rcases runCommand_eq_next.1 hm with ⟨hvalid, rfl⟩ | ⟨hvalid, i, hd, he⟩ | ⟨hvalid, -, rfl⟩
    · simp [hvalid]
    · simp [hrst, hvalid, exec_command_rsp (decode_isCommand hd) he]
    · simp [hrst, hvalid]

/-- A cycle carries no event when none of its strobes is set. -/
theorem Cycle.events_eq_nil {c : Cycle} : c.events = [] ↔ c.rst = false ∧ c.cmdValid = false ∧ c.tick = false := by
  unfold Cycle.events
  cases c.rst <;> cases c.cmdValid <;> cases c.tick <;> simp

/-- A cycle with no event takes in its ports alone (R71). -/
theorem step_present_of_no_event {s : State} {c : Cycle} (h : c.events = []) :
    step (s.present c) = .next (s.beginCycle c) := by
  obtain ⟨hrst, hvalid, htick⟩ := Cycle.events_eq_nil.1 h
  exact step_eq_next.2 (.inr ⟨hrst, s.beginCycle c, runCommand_eq_next.2 (.inl ⟨hvalid, rfl⟩),
    runTick_eq_next.2 (.inl ⟨htick, rfl⟩)⟩)

/-- Settles O55: the step of the event's own cycle. -/
theorem eachEventIsOneStep : Obligations.EachEventIsOneStep := by
  refine ⟨fun s e h => ?_, fun s c h => step_present_of_no_event h⟩
  obtain ⟨t, ht⟩ := (h.present e.cycle).step_completes
  refine ⟨t, ht, step_present_inputs ht, (step_rsp_isSome_iff ht).trans ?_⟩
  cases e <;> simp [Event.cycle]

theorem runCycles_singleton (c : Cycle) (s : State) : runCycles [c] s = step (s.present c) :=
  andThen_next_right _

/-- The cycle of a command event runs its word. -/
theorem step_command_event (w : CmdWord) (s : State) :
    step (s.present (Event.command w).cycle) = execWord w (s.beginCycle (Event.command w).cycle) :=
  andThen_next_right _

/-- The events of the command part of a cycle. -/
def Cycle.commandEvents (c : Cycle) : List Event := if c.cmdValid then [.command c.cmd] else []

/-- The events of the tick part of a cycle. -/
def Cycle.tickEvents (c : Cycle) : List Event := if c.tick then [.tick c.lineVal] else []

theorem Cycle.events_of_not_rst {c : Cycle} (h : c.rst = false) : c.events = c.commandEvents ++ c.tickEvents := by
  rw [Cycle.events, h]
  rfl

/-- A word does the same whatever the lines answer. -/
theorem execWord_mapPorts {w : CmdWord} {s m : State} (l : Byte → Byte) (h : execWord w s = .next m) :
    execWord w (s.mapPorts id l id) = .next (m.mapPorts id l id) := by
  unfold execWord at h ⊢
  cases hd : decode w with
  | ok i => rw [hd] at h; exact exec_command_mapPorts id l (decode_isCommand hd) h
  | error e => rw [hd] at h; cases h; rfl

/-- The command part of a cycle does what its event does alone, but for the ports. -/
theorem runCommand_as_event {c : Cycle} {s m : State} (h : runCommand c (s.beginCycle c) = .next m) :
    ∃ u, runCycles (c.commandEvents.map Event.cycle) s = .next u ∧
      m = { u with lineVal := c.lineVal, rsp := m.rsp, lineReads := [] } := by
  have hreads : m.lineReads = [] := runCommand_lineReads h
  unfold runCommand at h
  unfold Cycle.commandEvents
  cases hvalid : c.cmdValid with
  | false =>
    rw [hvalid] at h
    cases h
    exact ⟨s, rfl, rfl⟩
  | true =>
    rw [hvalid] at h
    have hword : execWord c.cmd (s.beginCycle c) = .next m := h
    refine ⟨m.mapPorts id (fun _ => 0) id, ?_, ?_⟩
    · exact (runCycles_singleton _ s).trans
        ((step_command_event c.cmd s).trans (execWord_mapPorts (fun _ => 0) hword))
    · have hlineVal : m.lineVal = c.lineVal := by
        cases hd : decode c.cmd with
        | ok i =>
          simp only [execWord, hd] at hword
          exact (exec_keeps_surroundings hword).2.2.1
        | error e =>
          rw [execWord_of_undecodable hd] at hword
          cases hword
          rfl
      rw [← hlineVal, ← hreads]
      rfl

/-- The tick part of a cycle does what its event does after the command's, but for the ports. -/
theorem runTick_as_event {c : Cycle} {u m t : State}
    (hm : m = { u with lineVal := c.lineVal, rsp := m.rsp, lineReads := [] }) (h : runTick c m = .next t) :
    ∃ v, runCycles (c.tickEvents.map Event.cycle) u = .next v ∧
      t = { v with lineVal := t.lineVal, rsp := t.rsp, lineReads := t.lineReads } := by
  unfold runTick at h
  unfold Cycle.tickEvents
  cases htick : c.tick with
  | false =>
    rw [htick] at h
    cases h
    exact ⟨u, rfl, by rw [hm]⟩
  | true =>
    rw [htick] at h
    have htick' : execTick m = .next t := h
    have hstart : u.beginCycle (Event.tick c.lineVal).cycle = m.mapPorts id id fun _ => none := by rw [hm]; rfl
    refine ⟨t.mapPorts id id fun _ => none, (runCycles_singleton _ u).trans ?_, rfl⟩
    show execTick (u.beginCycle (Event.tick c.lineVal).cycle) = _
    rw [hstart, execTick_mapPorts, htick']
    rfl

/-- Settles O56: a hardware reset is its own event; else the command's event and the tick's follow one another. -/
theorem cycleIsItsEvents : Obligations.CycleIsItsEvents := by
  intro s t c h
  rcases step_eq_next.1 h with ⟨hrst, rfl⟩ | ⟨hrst, m, hm, ht⟩
  · have hrst' : c.rst = true := hrst
    refine ⟨(s.beginCycle Event.hardwareReset.cycle).hardwareReset, ?_, rfl⟩
    rw [Cycle.events, hrst']
    rfl
  · obtain ⟨u, hu, hmu⟩ := runCommand_as_event (c := c) (s := s) hm
    obtain ⟨v, hv, htv⟩ := runTick_as_event hmu ht
    refine ⟨v, ?_, htv⟩
    rw [Cycle.events_of_not_rst (c := c) hrst, List.map_append, runCycles_append, hu, andThen_next, hv]

end Sys2Proof.Machine
end

section
/-! PROOFS. Family 42_reporting.md: the expansion of `DUMP` in `DONE` yields the report (R144, R145). -/

namespace Sys2Proof.Machine

/-! ### The answers in `DONE` -/

/-- A query answers the same whatever response stands on the port. -/
theorem State.queryResponse_withRsp (s : State) (r : Option Response) (i : Instr) :
    State.queryResponse { s with rsp := r } i = s.queryResponse i := by
  cases i <;> rfl

/-- The answers depend on no response that stands on the port before them. -/
theorem answersTo_withRsp (events : List Instr) (s : State) (r : Option Response) :
    answersTo events { s with rsp := r } = answersTo events s := by
  cases events <;> rfl

theorem answersTo_cons_of_query {s : State} {i : Instr} {r : Response} (h : s.queryResponse i = some r)
    (events : List Instr) : answersTo (i :: events) s = r :: answersTo events s := by
  have hexec : exec i { s with rsp := none } = .next (State.reply { s with rsp := none } r) :=
    exec_query ((s.queryResponse_withRsp none i).trans h)
  rw [answersTo, hexec]
  exact congrArg (r :: ·) (answersTo_withRsp events s (some r))

/-- In `DONE` a tick gives no answer and leaves the answers after it (R120). -/
theorem answersTo_cons_tick {s : State} (hs : s.state = .done) (events : List Instr) :
    answersTo (.tick :: events) s = answersTo events s := by
  have hexec : exec .tick { s with rsp := none } = .next { s with rsp := none } := exec_tick_of_done hs
  rw [answersTo, hexec]
  exact answersTo_withRsp events s none

/-- In `DONE`, queries with ticks between them answer what each answers alone. -/
theorem answersTo_queries {s : State} (hs : s.state = .done) {events : List Instr} {answer : Instr → Response}
    (hqueries : ∀ i ∈ events.filter Instr.isCommand, s.queryResponse i = some (answer i)) :
    answersTo events s = (events.filter Instr.isCommand).map answer := by
  induction events with
  | nil => rfl
  | cons i events ih =>
    cases hcmd : i.isCommand with
    | true =>
      rw [List.filter_cons_of_pos hcmd] at hqueries ⊢
      rw [answersTo_cons_of_query (hqueries i List.mem_cons_self), ih fun k hk => hqueries k (List.mem_cons_of_mem i hk),
        List.map_cons]
    | false =>
      rw [List.filter_cons_of_neg (by simp [hcmd])] at hqueries ⊢
      cases i with
      | tick => rw [answersTo_cons_tick hs, ih hqueries]
      | addTrace | addTrig | setPeriod | reset | start | isActive | isDone | rdSample | rdPeriod | rdCount => cases hcmd

/-! ### The expansion -/

/-- The answer of a read of the expansion. -/
def State.dumpAnswer (s : State) (i : Instr) : Response := (s.queryResponse i).getD .fail

/-- The answer to the read of an index inside the store (R140). -/
theorem State.dumpAnswer_rdSample {s : State} {j : Nat} (hj : j < s.params.capacity) (hN : s.params.capacity ≤ 65536) :
    s.dumpAnswer (.rdSample (BitVec.ofNat 16 j)) = .okData ((s.slot j).setWidth 32) := by
  have hidx : (BitVec.ofNat 16 j).toNat = j := by rw [BitVec.toNat_ofNat]; omega
  simp [State.dumpAnswer, State.queryResponse, hidx, hj]

/-- Every command of the expansion is a query. -/
theorem queryResponse_of_mem_dumpCommands {s : State} {n c : Nat} {i : Instr} (h : i ∈ dumpCommands n c) :
    s.queryResponse i = some (s.dumpAnswer i) := by
  simp only [dumpCommands, dumpRow, List.mem_cons, List.mem_flatMap, List.mem_map] at h
  rcases h with rfl | rfl | ⟨-, -, j, -, rfl⟩ <;> rfl

@[simp] theorem length_dumpRow (n : Nat) : (dumpRow n).length = n := by
  simp [dumpRow]

/-- `c` copies of a list, and entry `j` of copy `i`. -/
theorem getElem?_flatMap_const {α : Type} (l : List α) {c i j : Nat} (hi : i < c) (hj : j < l.length) :
    ((List.range c).flatMap fun _ => l)[i * l.length + j]? = l[j]? := by
  induction c with
  | zero => exact absurd hi (Nat.not_lt_zero i)
  | succ c ih =>
    have hlength : ((List.range c).flatMap fun _ => l).length = c * l.length := by simp [List.length_flatMap]
    rw [List.range_succ, List.flatMap_append, List.flatMap_singleton]
    rcases Nat.lt_succ_iff_lt_or_eq.1 hi with hlt | rfl
    · have hinside : i * l.length + j < c * l.length :=
        calc i * l.length + j < i * l.length + l.length := Nat.add_lt_add_left hj _
          _ = (i + 1) * l.length := (Nat.succ_mul i l.length).symm
          _ ≤ c * l.length := Nat.mul_le_mul_right _ hlt
      rw [List.getElem?_append_left (by rw [hlength]; exact hinside), ih hlt]
    · rw [List.getElem?_append_right (by rw [hlength]; exact Nat.le_add_right _ _), hlength, Nat.add_sub_cancel_left]

/-- Command number `2 + i * n + j` of the expansion reads slot `j`, for row `i` (R145). -/
theorem getElem?_dumpCommands {n c i j : Nat} (hi : i < c) (hj : j < n) :
    (dumpCommands n c)[2 + i * n + j]? = some (.rdSample (BitVec.ofNat 16 j)) := by
  have hrow := getElem?_flatMap_const (dumpRow n) hi (by rwa [length_dumpRow])
  rw [length_dumpRow] at hrow
  have hindex : 2 + i * n + j = i * n + j + 1 + 1 := by omega
  rw [hindex, dumpCommands, List.getElem?_cons_succ, List.getElem?_cons_succ, hrow]
  simp [dumpRow, hj]

/-- The data of response number `k`, when each command gives its own answer. -/
theorem answerData_map {s : State} {commands : List Instr} {k : Nat} {i : Instr} (h : commands[k]? = some i) :
    answerData (commands.map s.dumpAnswer) k = (s.dumpAnswer i).data := by
  simp [answerData, h]

/-- Bit `i` of the response to a read is the digit, for a position of the table (R143). -/
theorem answerData_dump_digit {s : State} (hN : s.params.capacity ≤ 65536) {i j : Nat} (hi : i < s.count.val)
    (hj : j < s.params.capacity) :
    ((answerData ((dumpCommands s.params.capacity s.count.val).map s.dumpAnswer)
      (2 + i * s.params.capacity + j)).getLsbD i).toNat = s.digit i j := by
  have hbit : i < 32 := by have := s.count.isLt; omega
  rw [answerData_map (getElem?_dumpCommands hi hj), State.dumpAnswer_rdSample hj hN, State.digit]
  simp [Response.okData, hbit]

/-- The host's report of the answers of the expansion is the report of the state (R144, R145). -/
theorem dumpReport_eq_report {s : State} (hN : s.params.capacity ≤ 65536) :
    dumpReport s.params.capacity ((dumpCommands s.params.capacity s.count.val).map s.dumpAnswer) = s.report := by
  have hcount : (answerData ((dumpCommands s.params.capacity s.count.val).map s.dumpAnswer) 1).toNat = s.count.val := by
    have hlt := s.count.isLt
    rw [answerData_map (i := .rdCount) rfl]
    show (BitVec.ofNat 32 s.count.val).toNat = s.count.val
    rw [BitVec.toNat_ofNat]
    omega
  rw [dumpReport, hcount, State.report]
  congr 1
  refine List.map_congr_left fun i hi => List.map_congr_left fun j hj => ?_
  exact answerData_dump_digit hN (List.mem_range.1 hi) (List.mem_range.1 hj)

/-- Settles O39: in `DONE` the ticks do nothing, so the answers are those of the expansion alone. -/
theorem dumpInDoneYieldsReport : Obligations.DumpInDoneYieldsReport := by
  intro s events hs hN hevents
  have hanswers : answersTo events s = (events.filter Instr.isCommand).map s.dumpAnswer :=
    answersTo_queries hs fun i hi => queryResponse_of_mem_dumpCommands (hevents ▸ hi)
  rw [hanswers, hevents]
  exact dumpReport_eq_report hN

end Sys2Proof.Machine
end
